-- ==== Sys2Proof/Word.lean ====
section
/-! DEFINITION. The widths of the block: words, bytes and the fields the spec treats as bits (spec/00_scope.md R8, R13,
R14; spec/20_memory.md R37). -/

namespace Sys2Proof

/-- One word of the command, response and event streams (R37). -/
abbrev Word := BitVec 32

/-- One byte of a frame or of a record (R15). -/
abbrev Byte := BitVec 8

/-- A 29-bit extended CAN identifier (R8, R38). -/
abbrev Ident := BitVec 29

/-- A 21-bit base address (R8). -/
abbrev BaseAddr := BitVec 21

/-- An 8-bit node id (R8, R39: every value is legal). -/
abbrev NodeId := BitVec 8

/-- A filter entry's tag, `TAG_W` = 16 bits (R13). -/
abbrev Tag := BitVec 16

/-- A transport failure code, `TCODE_W` = 16 bits (R13). -/
abbrev TCode := BitVec 16

/-- A size or length field of 11 bits (R23, R25, R26, R66). -/
abbrev Len := BitVec 11

end Sys2Proof
end

