-- ==== Sys2Proof/Syntax.lean ====
section
/-! DEFINITION. The commands of the block, one constructor per row of spec/opcode_table.json (spec/30_encoding.md R66 to
R69). A term holds every field of the command, the reserved ones too: the spec answers an illegal command of a known opcode by
that command's own rule (each rule's first test), so the meaning sees what the test reads (log entry 9). -/

namespace Sys2Proof

/-- The header word `W0` less its opcode (R66). -/
structure Header where
  /-- `NODE`, bits 23:16. -/
  node : NodeId
  /-- `RTR`, bit 15. -/
  rtr : Bool
  /-- `RSV`, bits 14:11. -/
  rsv : BitVec 4
  /-- `LEN`, bits 10:0. -/
  len : Len
  deriving DecidableEq, Repr

/-- The rows of the opcode map (R68). -/
inductive Opcode where
  | compose | sendFrame | sendRecord | sendQuery
  | register | registerMasked | remove | removeMasked
  | openChannel | closeChannel
  deriving DecidableEq, Repr

/-- A command with its header fields and its operand words, in the order of R68's columns. -/
inductive Instr where
  /-- COMPOSE (R86): `W1` is a base word. -/
  | compose (h : Header) (base : Word)
  /-- SEND_FRAME (R98): `W1` is an ID word, `W2` and `W3` hold the data bytes. -/
  | sendFrame (h : Header) (id data0 data1 : Word)
  /-- SEND_RECORD (R93): `W1` is a base word, `W2 ..` hold the record's bytes. -/
  | sendRecord (h : Header) (base : Word) (data : List Word)
  /-- SEND_QUERY (R97): `W1` is a base word. -/
  | sendQuery (h : Header) (base : Word)
  /-- REGISTER (R121): `W1` is a key word, `W2` a tag word. -/
  | register (h : Header) (key tag : Word)
  /-- REGISTER_MASKED (R122): `W1` and `W2` are key words (base and mask), `W3` a tag word. -/
  | registerMasked (h : Header) (base mask tag : Word)
  /-- REMOVE (R123): `W1` is a key word. -/
  | remove (h : Header) (key : Word)
  /-- REMOVE_MASKED (R124): `W1` and `W2` are key words (base and mask). -/
  | removeMasked (h : Header) (base mask : Word)
  /-- OPEN (R130). -/
  | openChannel (h : Header)
  /-- CLOSE (R131). -/
  | closeChannel (h : Header)
  deriving DecidableEq, Repr

end Sys2Proof
end

