-- ==== Sys2Proof/Config.lean ====
section
/-! DEFINITION. What is fixed for a run: the four capacities the spec leaves OPEN (spec/00_scope.md R9 to R12) and the
constants the source fixes (R6, R7). -/

namespace Sys2Proof

/-- `MAX_RECORD` (R6). -/
abbrev maxRecord : Nat := 1792

/-- `SEG_PAYLOAD`: record bytes per segment, but for the last (R7). -/
abbrev segPayload : Nat := 7

/-- `SINGLE_MAX`: a record of at most so many bytes travels in one unindexed frame (R7). -/
abbrev singleMax : Nat := 8

/-- `MAX_SEGMENTS` (R7). -/
abbrev maxSegments : Nat := 256

/-- The capacities. The spec leaves each OPEN and says that the model takes it as an argument (R9 to R12): `State` holds
them, no step changes them, and every statement is for every value of them. -/
structure Params where
  /-- `NEXACT`, the capacity of the exact filter table (R9). -/
  nexact : Nat
  /-- `NMASKED`, the capacity of the masked filter table (R10). -/
  nmasked : Nat
  /-- `NCTX`, the number of reassembly contexts that may be live at once (R11). -/
  nctx : Nat
  /-- `OUTQ_DEPTH`, the number of entries the event queue holds (R12). -/
  outqDepth : Nat
  deriving DecidableEq, Repr

/-- The spec's only constraint on the capacities: each is at least 1 (R9 to R12). -/
def Params.wf (p : Params) : Bool :=
  decide (1 ≤ p.nexact) && decide (1 ≤ p.nmasked) && decide (1 ≤ p.nctx) && decide (1 ≤ p.outqDepth)

/-- The capacities of spec/95_test_vectors.md's conventions. DESIGN CHOICE for `State.reset` (log entry 3): unsafe where a
claim rests on one of these numbers. -/
def Params.vectors : Params :=
  { nexact := 4, nmasked := 4, nctx := 4, outqDepth := 16 }

end Sys2Proof
end

