-- ==== Sys2Proof/WellFormed.lean ====
section
/-! DEFINITION. Which commands are legal, as spec/30_encoding.md R68's table and R69's list (b) to (e) say it: one row of
field rules per opcode and one reserved-bit test per operand word. The meanings in Machine/ follow the per-command pseudocode
instead; that the two agree is a statement. -/

namespace Sys2Proof

/-- One row of R68's header columns: which fields the opcode uses, and the range of `LEN`. -/
structure FieldRule where
  /-- "any" in the column `NODE`; otherwise the field must be 0. -/
  nodeUsed : Bool
  /-- "any" in the column `RTR`; otherwise the field must be 0. -/
  rtrUsed : Bool
  /-- The least legal `LEN`. -/
  lenLo : Nat
  /-- The greatest legal `LEN`. -/
  lenHi : Nat
  deriving DecidableEq, Repr

/-- The columns `NODE`, `RTR` and `LEN` of R68. -/
def Instr.fieldRule : Instr → FieldRule
  | .compose _ _ => ⟨true, true, 0, 0⟩
  | .sendFrame _ _ _ _ => ⟨false, true, 0, 8⟩
  | .sendRecord _ _ _ => ⟨true, false, 1, maxRecord⟩
  | .sendQuery _ _ => ⟨true, false, 0, 0⟩
  | .register _ _ _ => ⟨false, false, 0, maxRecord⟩
  | .registerMasked _ _ _ _ => ⟨false, false, 0, maxRecord⟩
  | .remove _ _ => ⟨false, false, 0, 0⟩
  | .removeMasked _ _ _ => ⟨false, false, 0, 0⟩
  | .openChannel _ => ⟨false, false, 0, 0⟩
  | .closeChannel _ => ⟨false, false, 0, 0⟩

/-- R69 (b): `RSV` is 0. -/
def Header.rsvClear (h : Header) : Bool := h.rsv == 0

/-- R69 (c): a header field the opcode does not use is 0. -/
def Header.unusedClear (h : Header) (r : FieldRule) : Bool :=
  (r.nodeUsed || h.node == 0) && (r.rtrUsed || !h.rtr)

/-- R69 (d): `LEN` is in the opcode's range. -/
def Header.lenInRange (h : Header) (r : FieldRule) : Bool :=
  decide (r.lenLo ≤ h.len.toNat) && decide (h.len.toNat ≤ r.lenHi)

/-- R59: bits 31:21 of a base word are 0. -/
def baseWordOk (w : Word) : Bool := decide (w.toNat < 2 ^ 21)

/-- R60: bits 31:29 of an ID word are 0. -/
def idWordOk (w : Word) : Bool := decide (w.toNat < 2 ^ 29)

/-- R58: bits 31 and 29 of a key word are 0. -/
def keyWordOk (w : Word) : Bool := w &&& 0xA0000000 == 0

/-- R61: bits 31:16 of a tag word are 0. -/
def tagWordOk (w : Word) : Bool := decide (w.toNat < 2 ^ 16)

/-- The header of a command. -/
def Instr.header : Instr → Header
  | .compose h _ | .sendFrame h _ _ _ | .sendRecord h _ _ | .sendQuery h _ | .register h _ _
  | .registerMasked h _ _ _ | .remove h _ | .removeMasked h _ _ | .openChannel h | .closeChannel h => h

/-- R69 (e): no reserved bit of an operand word is set. -/
def Instr.operandsOk : Instr → Bool
  | .compose _ b | .sendRecord _ b _ | .sendQuery _ b => baseWordOk b
  | .sendFrame _ i _ _ => idWordOk i
  | .register _ k t => keyWordOk k && tagWordOk t
  | .registerMasked _ b m t => keyWordOk b && keyWordOk m && tagWordOk t
  | .remove _ k => keyWordOk k
  | .removeMasked _ b m => keyWordOk b && keyWordOk m
  | .openChannel _ | .closeChannel _ => true

/-- A SEND_RECORD has the data words R67 counts for its `LEN`. The decoder builds no other term (log entry 13). -/
def Instr.shaped : Instr → Bool
  | .sendRecord h _ d => d.length == (h.len.toNat + 3) / 4
  | _ => true

/-- R69 (b) to (e): none holds. (Case (a), an unknown opcode, is no term of `Instr`.) -/
def Instr.legal (i : Instr) : Bool :=
  i.header.rsvClear && i.header.unusedClear i.fieldRule && i.header.lenInRange i.fieldRule && i.operandsOk

/-- A command that some word list encodes and that is legal. -/
def Instr.wellFormed (i : Instr) : Bool := i.shaped && i.legal

end Sys2Proof
end

