-- ==== Sys2Proof/Decode.lean ====
section
/-! DEFINITION. Cutting the command stream into commands, the decoder, and the encoder (spec/30_encoding.md R66 to R69,
R77). The decoder is total: it rejects by name a stream with no command, a command whose words have not all come, and an
unknown opcode. A known opcode always decodes, its reserved fields with it (log entry 9). -/

namespace Sys2Proof

/-- The opcodes of R68. -/
def Opcode.code : Opcode → BitVec 8
  | .compose => 0x01
  | .sendFrame => 0x02
  | .sendRecord => 0x03
  | .sendQuery => 0x04
  | .register => 0x10
  | .registerMasked => 0x11
  | .remove => 0x12
  | .removeMasked => 0x13
  | .openChannel => 0x20
  | .closeChannel => 0x21

/-- The rows of R68 in the table's order. -/
def Opcode.all : List Opcode :=
  [.compose, .sendFrame, .sendRecord, .sendQuery, .register, .registerMasked, .remove, .removeMasked, .openChannel, .closeChannel]

/-- The row whose `OPC` is the given byte, if R68 has one. -/
def Opcode.ofCode (b : BitVec 8) : Option Opcode := Opcode.all.find? fun o => o.code == b

/-- How many words follow the header (R67, less the header's own). It depends on `OPC` and `LEN` alone. -/
def Opcode.operandCount (o : Opcode) (len : Len) : Nat :=
  match o with
  | .compose => 1
  | .sendFrame => 3
  | .sendRecord => 1 + (len.toNat + 3) / 4
  | .sendQuery => 1
  | .register => 2
  | .registerMasked => 3
  | .remove => 1
  | .removeMasked => 2
  | .openChannel => 0
  | .closeChannel => 0

/-- `OPC` = `W0[31:24]` (R66). -/
def opcField (w : Word) : BitVec 8 := w.extractLsb' 24 8

/-- `NODE`, `RTR`, `RSV` and `LEN` of `W0` (R66). -/
def headerFields (w : Word) : Header where
  node := w.extractLsb' 16 8
  rtr := w.getLsbD 15
  rsv := w.extractLsb' 11 4
  len := w.extractLsb' 0 11

/-- The command length of R67 in words, a function of the header word. -/
def commandWords (w0 : Word) : Nat :=
  match Opcode.ofCode (opcField w0) with
  | none => 1
  | some o => 1 + o.operandCount (headerFields w0).len

/-- The command of a row from its header and its operand words `W1, W2, ..` (R68's columns). -/
def Opcode.build (o : Opcode) (h : Header) (ws : List Word) : Instr :=
  match o with
  | .compose => .compose h (ws.getD 0 0)
  | .sendFrame => .sendFrame h (ws.getD 0 0) (ws.getD 1 0) (ws.getD 2 0)
  | .sendRecord => .sendRecord h (ws.getD 0 0) (ws.drop 1)
  | .sendQuery => .sendQuery h (ws.getD 0 0)
  | .register => .register h (ws.getD 0 0) (ws.getD 1 0)
  | .registerMasked => .registerMasked h (ws.getD 0 0) (ws.getD 1 0) (ws.getD 2 0)
  | .remove => .remove h (ws.getD 0 0)
  | .removeMasked => .removeMasked h (ws.getD 0 0) (ws.getD 1 0)
  | .openChannel => .openChannel h
  | .closeChannel => .closeChannel h

/-- Why a word list gives no command of the table. -/
inductive DecodeError where
  /-- No word is offered. -/
  | noWord
  /-- The command's words have not all come: the block waits for the rest (spec/44_transport.md R136). -/
  | incomplete
  /-- R69 (a): `OPC` is not in the table. One word is consumed and the response is ILLEGAL_COMMAND. -/
  | unknownOpcode (opc : BitVec 8)
  deriving DecidableEq, Repr

/-- The first command of the stream and the words after it. -/
def decode : List Word → Except DecodeError (Instr × List Word)
  | [] => .error .noWord
  | w0 :: ws =>
    match Opcode.ofCode (opcField w0) with
    | none => .error (.unknownOpcode (opcField w0))
    | some o =>
      let n := o.operandCount (headerFields w0).len
      if ws.length < n then .error .incomplete
      else .ok (o.build (headerFields w0) (ws.take n), ws.drop n)

/-- A whole command stands at the head of the stream: one of the table, or an unknown opcode's one word (R67). -/
def wholeCommand (ws : List Word) : Bool :=
  match ws with
  | [] => false
  | w0 :: _ => decide (commandWords w0 ≤ ws.length)

/-- Exactly one command of R67's length and nothing behind it: what the command port carries (R126, R136). -/
def oneCommand (ws : List Word) : Bool :=
  match ws with
  | [] => false
  | w0 :: _ => ws.length == commandWords w0

/-! ### The encoder -/

/-- The row of a command. -/
def Instr.opcode : Instr → Opcode
  | .compose _ _ => .compose
  | .sendFrame _ _ _ _ => .sendFrame
  | .sendRecord _ _ _ => .sendRecord
  | .sendQuery _ _ => .sendQuery
  | .register _ _ _ => .register
  | .registerMasked _ _ _ _ => .registerMasked
  | .remove _ _ => .remove
  | .removeMasked _ _ _ => .removeMasked
  | .openChannel _ => .openChannel
  | .closeChannel _ => .closeChannel

/-- The operand words of a command, `W1` first (R68). -/
def Instr.operands : Instr → List Word
  | .compose _ b => [b]
  | .sendFrame _ i d0 d1 => [i, d0, d1]
  | .sendRecord _ b d => b :: d
  | .sendQuery _ b => [b]
  | .register _ k t => [k, t]
  | .registerMasked _ b m t => [b, m, t]
  | .remove _ k => [k]
  | .removeMasked _ b m => [b, m]
  | .openChannel _ => []
  | .closeChannel _ => []

/-- The header word `{OPC, NODE, RTR, RSV, LEN}` (R66). -/
def headerWord (o : Opcode) (h : Header) : Word :=
  o.code ++ h.node ++ BitVec.ofBool h.rtr ++ h.rsv ++ h.len

/-- The words of a command (R66 to R68). -/
def encode (i : Instr) : List Word := headerWord i.opcode i.header :: i.operands

/-! ### The opcode table's numbering -/

/-- The first `n` words of a bit string whose bit 0 is the least significant bit of the first word. -/
def wordsOfBits : Nat → Nat → List Word
  | 0, _ => []
  | n + 1, w => BitVec.ofNat 32 w :: wordsOfBits n (w / 2 ^ 32)

/-- The words of the instruction whose `nbits` bits are `w`, every higher bit 0: as many words as R67 counts for its header. -/
def tableWords (nbits w : Nat) : List Word :=
  let bits := w % 2 ^ nbits
  wordsOfBits (commandWords (BitVec.ofNat 32 bits)) bits

/-- The instruction the decoder reads from those words, `none` where it refuses. -/
def decodeTableWord (nbits w : Nat) : Option Instr :=
  match decode (tableWords nbits w) with
  | .ok (i, _) => some i
  | .error _ => none

end Sys2Proof
end

