-- ==== Sys2Proof/Machine/State.lean ====
section
/-! DEFINITION. The state of the block and of what surrounds it, as plain data: the architectural tuple of spec/10_state.md
R19, the lines of the ports (spec/44_transport.md R126), the schedule of the agents' moves (spec/00_scope.md R18) and what the
outside has been given. -/

namespace Sys2Proof.Machine

/-- A port frame (R36). `size` is the port's 4-bit field, which can carry 9 to 15 (R104 drops such a frame). -/
structure Frame where
  ext : Bool
  rtr : Bool
  id : Ident
  size : BitVec 4
  data : Vector Byte 8
  deriving DecidableEq, Repr

/-- An exact filter entry (R23). -/
structure ExactEntry where
  key : Word
  len : Len
  tag : Tag
  deriving DecidableEq, Repr

/-- A masked filter entry (R25). -/
structure MaskedEntry where
  base : Word
  mask : Word
  len : Len
  tag : Tag
  deriving DecidableEq, Repr

/-- A live reassembly context with the identifier it is kept under (R26). `N` is derived from `size`, not stored. -/
structure Context where
  id : Ident
  /-- `S`, the record size. -/
  size : Len
  /-- The bitmap, bit 0 first: `N` bits. -/
  received : List Bool
  /-- The record under reconstruction, from offset 0: `S` bytes. -/
  value : List Byte
  deriving DecidableEq, Repr

/-- `CTX` (R26): the block's only byte-addressed storage (R16). One entry per live identifier, identifiers strictly rising; an
identifier with no entry reads as a bitmap all clear and a value all zero (R27). -/
abbrev Memory := List Context

/-- The commands that offer a frame on the TX port (R29). -/
inductive SendOp where
  | sendFrame | sendRecord | sendQuery
  deriving DecidableEq, Repr

/-- The requests of the control port (R29, R126). -/
inductive CtlOp where
  | openChannel | closeChannel
  deriving DecidableEq, Repr

/-- The transport's answer to an offer (R126); the code is any 16 bits (R137). -/
inductive TRes where
  | ok
  | fail (code : TCode)
  deriving DecidableEq, Repr

/-- The command engine (R29). -/
inductive Cmd where
  | idle
  /-- `TXWAIT(op, id, S, N, i, rec, frame)`: `i` is the segmenter's cursor. -/
  | txWait (op : SendOp) (id : Ident) (size : Len) (nseg : Nat) (i : Nat) (record : List Byte) (frame : Frame)
  /-- `CTLWAIT(op)`. -/
  | ctlWait (op : CtlOp)
  deriving DecidableEq, Repr

/-- The status codes (R71). -/
inductive Status where
  | ok | transportFailure | illegalCommand | entryExists | tableFull
  deriving DecidableEq, Repr

/-- A response (R70): the fields of `R0`, and `R1` for a COMPOSE that succeeds. -/
structure Response where
  status : Status
  segIdx : Byte
  tcode : TCode
  key : Option Word
  deriving DecidableEq, Repr

/-- The causes of an RX_ERROR event (R74). -/
inductive RxCause where
  | invalidSize | invalidIndex | ctxFull
  deriving DecidableEq, Repr

/-- An event (R72 to R74). -/
inductive Event where
  | frame (tag : Tag) (key : Word) (size : BitVec 4) (data : Vector Byte 8)
  | record (tag : Tag) (key : Word) (size : Len) (bytes : List Byte)
  | rxError (tag : Tag) (key : Word) (cause : RxCause) (size : BitVec 4) (seg : Byte)
  deriving DecidableEq, Repr

/-- What the host may do (R136). -/
inductive HostAct where
  /-- Offer one command, legal or not, on the command port. -/
  | issue (ws : List Word)
  /-- Read the response slot (R134). -/
  | readResponse
  /-- Pop one event (R135). -/
  | popEvent
  /-- Assert reset (R162). -/
  | assertReset
  deriving DecidableEq, Repr

/-- What the transport may do (R137). -/
inductive TransportAct where
  /-- Answer the pending offer. -/
  | answer (t : TRes)
  /-- Answer an offer that reset has withdrawn (R163). -/
  | answerWithdrawn (t : TRes)
  /-- Offer one received frame. -/
  | offerFrame (f : Frame)
  deriving DecidableEq, Repr

/-- One agent's turn (R18). -/
inductive Move where
  | host (a : HostAct)
  | cmd
  | rxe
  | transport (a : TransportAct)
  deriving DecidableEq, Repr

/-- The state. -/
structure State where
  /-- The capacities (R9 to R12), fixed for a run. -/
  params : Params
  /-- `EXACT` (R22), keys strictly rising. -/
  exact : List ExactEntry
  /-- `MASKED` (R24), oldest first. -/
  masked : List MaskedEntry
  /-- `CTX` (R26). -/
  ctx : Memory
  /-- `CMD` (R29). -/
  cmd : Cmd
  /-- `RESP` (R30). -/
  resp : Option Response
  /-- `OUTQ` (R31), head first. -/
  outq : List Event
  /-- The words of the one command the host has offered on the command port and CMD has not taken (R126, R136). -/
  cmdPort : List Word
  /-- The transport's answer that CMD has not taken (R128, R129). -/
  answer : Option TRes
  /-- The frame the transport has offered on the RX port and RXE has not taken (R133). -/
  rxPort : Option Frame
  /-- The agents' turns still to come (the model's own; log entry 1). -/
  script : List Move
  /-- The frames offered on the TX port, oldest first (the model's own; log entry 6). -/
  txLog : List Frame
  /-- The requests offered on the control port, oldest first (the model's own; log entry 6). -/
  ctlLog : List CtlOp
  /-- What the host's reads of the response slot returned, oldest first (the model's own; log entry 6). -/
  respLog : List (List Word)
  /-- What the host's pops returned, oldest first (the model's own; log entry 6). -/
  eventLog : List (List Word)
  deriving DecidableEq, Repr

/-! ### One field written, every other kept -/

def State.withExact (s : State) (x : List ExactEntry) : State := { s with exact := x }

def State.withMasked (s : State) (x : List MaskedEntry) : State := { s with masked := x }

def State.withCtx (s : State) (x : Memory) : State := { s with ctx := x }

def State.withCmd (s : State) (x : Cmd) : State := { s with cmd := x }

def State.withResp (s : State) (x : Option Response) : State := { s with resp := x }

def State.withOutq (s : State) (x : List Event) : State := { s with outq := x }

def State.withCmdPort (s : State) (x : List Word) : State := { s with cmdPort := x }

def State.withAnswer (s : State) (x : Option TRes) : State := { s with answer := x }

def State.withRxPort (s : State) (x : Option Frame) : State := { s with rxPort := x }

def State.withScript (s : State) (x : List Move) : State := { s with script := x }

def State.withTxLog (s : State) (x : List Frame) : State := { s with txLog := x }

def State.withCtlLog (s : State) (x : List CtlOp) : State := { s with ctlLog := x }

def State.withRespLog (s : State) (x : List (List Word)) : State := { s with respLog := x }

def State.withEventLog (s : State) (x : List (List Word)) : State := { s with eventLog := x }

/-- Why the machine could stop with a fault. -/
inductive Fault where
  /-- Raised by nobody: the block has no trap (R140, R155), every error is a response or an event. It stands here so that
  "no step faults" is a statement about the model. Safe. -/
  | trap
  deriving DecidableEq, Repr

/-- Why an instruction could have no meaning. -/
inductive Refusal where
  /-- Raised by an arm of `exec` whose instruction has no meaning yet; no arm is in that case. Safe. -/
  | notModelled (mnemonic : String)
  deriving DecidableEq, Repr

/-- The outcome of a step of this machine. -/
abbrev Result := Host.Outcome State Fault Refusal

/-- The reset state (R162) for given capacities, nothing offered on any port and no turn scheduled. -/
def State.resetWith (p : Params) : State :=
  { params := p, exact := [], masked := [], ctx := [], cmd := .idle, resp := none, outq := []
    cmdPort := [], answer := none, rxPort := none, script := []
    txLog := [], ctlLog := [], respLog := [], eventLog := [] }

/-- The machine right after reset. The capacities are those of spec/95_test_vectors.md (log entry 3). -/
def State.reset : State := State.resetWith Params.vectors

end Sys2Proof.Machine
end

