-- ==== Sys2Proof/Machine/Flags.lean ====
section
/-! DEFINITION. The block has no condition code and no status flag (spec/10_state.md R32). What it has of flag character: the
derived condition "busy", the two level conditions of spec/60_exceptions.md R154, the holds of spec/70_reset_and_hazards.md R173,
and each context's bitmap. -/

namespace Sys2Proof.Machine

/-- The derived condition "busy" (R32): `CMD` is not `IDLE`. -/
def State.busy (s : State) : Bool :=
  match s.cmd with
  | .idle => false
  | .txWait _ _ _ _ _ _ _ => true
  | .ctlWait _ => true

/-- "Response valid" (R154). -/
def State.responseValid (s : State) : Bool := s.resp.isSome

/-- "Event valid" (R154). -/
def State.eventValid (s : State) : Bool := !s.outq.isEmpty

/-- CMD may take a command (R127): `CMD = IDLE` and `RESP` empty. -/
def State.commandReady (s : State) : Bool := !s.busy && !s.responseValid

/-- The command port's one entry is free: the port is ready for the host (R126, R136; log entry 7). -/
def State.portReady (s : State) : Bool := s.cmdPort.isEmpty

/-- RXE may take a frame (R100): `OUTQ` has a free entry. -/
def State.rxeReady (s : State) : Bool := decide (s.outq.length < s.params.outqDepth)

/-- The bitmap of a new context: `n` clear bits (R111). -/
def clearBits (n : Nat) : List Bool := List.replicate n false

/-- `received[idx] <- 1` (R112). -/
def setBit (bits : List Bool) (idx : Nat) : List Bool := bits.set idx true

/-- Every bit is 1 (R113). -/
def allSet (bits : List Bool) : Bool := bits.all (fun b => b)

end Sys2Proof.Machine
end

