-- ==== Sys2Proof/Machine/Operands.lean ====
section
/-! DEFINITION. The fields of operand words, the byte lanes of words, the identifier codec, and the words of responses and
events (spec/30_encoding.md R58 to R61, R70 to R77; spec/40_addressing.md R80 to R82; spec/20_memory.md R42, R43). -/

namespace Sys2Proof.Machine

/-! ### Operand words -/

/-- `BASE` = `W1[20:0]` (R59). -/
def baseField (w : Word) : BaseAddr := w.extractLsb' 0 21

/-- The reserved bits 31:21 of a base word (R59). -/
def baseReserved (w : Word) : BitVec 11 := w.extractLsb' 21 11

/-- The identifier `W1[28:0]` of an ID word (R60). -/
def idField (w : Word) : Ident := w.extractLsb' 0 29

/-- The reserved bits 31:29 of an ID word (R60). -/
def idReserved (w : Word) : BitVec 3 := w.extractLsb' 29 3

/-- `TAG` = bits 15:0 of a tag word (R61). -/
def tagField (w : Word) : Tag := w.extractLsb' 0 16

/-- The reserved bits 31:16 of a tag word (R61). -/
def tagReserved (w : Word) : BitVec 16 := w.extractLsb' 16 16

/-- A reserved bit of a key word, 31 or 29, is set (R58). -/
def keyReserved (w : Word) : Bool := w.getLsbD 31 || w.getLsbD 29

/-! ### Byte lanes (R43) -/

/-- Byte lane `k` of a word: bits `8k+7 : 8k`. -/
def lane (w : Word) (k : Nat) : Byte := w.extractLsb' (8 * k) 8

/-- Byte `k` of a byte string packed into words. A word past the end reads as 0. -/
def byteOf (ws : List Word) (k : Nat) : Byte := lane (ws.getD (k / 4) 0) (k % 4)

/-- The first `n` bytes of a byte string packed into words. -/
def bytesOf (ws : List Word) (n : Nat) : List Byte := (List.range n).map (byteOf ws)

/-- A word from its four lanes, lane 0 first. -/
def ofLanes (a b c d : Byte) : Word := d ++ c ++ b ++ a

/-- A byte string packed into words; the lanes past its end are 0 (R75). -/
def packWords : List Byte → List Word
  | [] => []
  | [a] => [ofLanes a 0 0 0]
  | [a, b] => [ofLanes a b 0 0]
  | [a, b, c] => [ofLanes a b c 0]
  | a :: b :: c :: d :: rest => ofLanes a b c d :: packWords rest

/-! ### A frame's data -/

/-- The 8 data bytes, by position. -/
def dataOf (f : Nat → Byte) : Vector Byte 8 := #v[f 0, f 1, f 2, f 3, f 4, f 5, f 6, f 7]

/-- `data[k]`. -/
def Frame.byte (f : Frame) (k : Nat) : Byte := f.data.toList.getD k 0

/-- The data with every byte at and past `size` written as 0 (R75). -/
def maskData (size : BitVec 4) (d : Vector Byte 8) : Vector Byte 8 :=
  dataOf fun k => if k < size.toNat then d.toList.getD k 0 else 0

/-! ### Identifiers and keys -/

/-- `compose_id` (R80). -/
def composeId (base : BaseAddr) (node : NodeId) : Ident := base ++ node

/-- The key word of a remote flag and an identifier (R58). -/
def keyOf (rtr : Bool) (id : Ident) : Word := 0#1 ++ BitVec.ofBool rtr ++ 0#1 ++ id

/-- `compose_key` (R80). -/
def composeKey (base : BaseAddr) (node : NodeId) (rtr : Bool) : Word := keyOf rtr (composeId base node)

/-- `base_of` (R81). -/
def baseOf (id : Ident) : BaseAddr := id.extractLsb' 8 21

/-- `node_of` (R81). -/
def nodeOf (id : Ident) : NodeId := id.extractLsb' 0 8

/-- `rtr_of` (R81). -/
def rtrOf (key : Word) : Bool := key.getLsbD 30

/-- `id_of` (R81). -/
def idOf (key : Word) : Ident := key.extractLsb' 0 29

/-- `frame_key` (R82). -/
def Frame.key (f : Frame) : Word := keyOf f.rtr f.id

/-! ### The words the host reads -/

/-- `STATUS` (R71). -/
def Status.code : Status → Byte
  | .ok => 0x00
  | .transportFailure => 0x04
  | .illegalCommand => 0x10
  | .entryExists => 0x11
  | .tableFull => 0x12

/-- The words of a response: `R0` and, where there is one, `R1` (R70). -/
def Response.words (r : Response) : List Word :=
  (r.status.code ++ r.segIdx ++ r.tcode) :: r.key.toList

/-- `CAUSE` of an RX_ERROR (R74). -/
def RxCause.code : RxCause → Byte
  | .invalidSize => 0x01
  | .invalidIndex => 0x02
  | .ctxFull => 0x03

/-- `E0` (R72). -/
def eventHead (kind cause : Byte) (tag : Tag) : Word := kind ++ cause ++ tag

/-- `E2`: `SEG` at bits 23:16 and `LEN` at bits 10:0 (R73). -/
def eventSize (seg : Byte) (len : Len) : Word := 0#8 ++ seg ++ 0#5 ++ len

/-- The words of an event (R72 to R74). -/
def Event.words : Event → List Word
  | .frame tag key size data =>
    eventHead 0x80 0 tag :: key :: eventSize 0 (size.setWidth 11) :: packWords data.toList
  | .record tag key size bytes =>
    eventHead 0x81 0 tag :: key :: eventSize 0 size :: packWords bytes
  | .rxError tag key cause size seg =>
    [eventHead 0x82 cause.code tag, key, eventSize seg (size.setWidth 11)]

end Sys2Proof.Machine
end

