-- ==== Sys2Proof/Machine/Ops.lean ====
section
/-! DEFINITION. The named operations over the state: the pseudocode primitives of spec/00_scope.md R16 (`respond`, `Emit`,
`TxSend`, `Ctrl`, `BufWrite`, `BufRead`), the two keyed tables, and reset (spec/70_reset_and_hazards.md R162, R163). Taking an
exception: the block never traps (spec/60_exceptions.md R140), and `respond` and `emit` are what stands in its place. -/

namespace Sys2Proof.Machine

/-! ### Finite maps as lists in strictly rising key order -/

/-- Put `x` under its key, in place of what stood there. -/
def putBy {α : Type} (key : α → Nat) (x : α) : List α → List α
  | [] => [x]
  | y :: ys =>
    if key x < key y then x :: y :: ys
    else if key x = key y then x :: ys
    else y :: putBy key x ys

/-- Keys strictly rise. -/
def risingBy {α : Type} (key : α → Nat) : List α → Bool
  | [] => true
  | [_] => true
  | x :: y :: ys => decide (key x < key y) && risingBy key (y :: ys)

/-! ### `CTX` -/

/-- The context kept under an identifier, if one is live. -/
def Memory.find (m : Memory) (id : Ident) : Option Context := List.find? (fun c => c.id == id) m

/-- Free the context of an identifier (R27: the same as resetting it). -/
def Memory.erase (m : Memory) (id : Ident) : Memory := List.filter (fun c => c.id != id) m

/-- Keep a context under its identifier. -/
def Memory.put (m : Memory) (c : Context) : Memory := putBy (fun c => c.id.toNat) c m

/-- `BufRead` (R16) of one byte: what offset `off` of identifier `id`'s buffer reads as, 0 where no context is live (R27). -/
def Memory.readByte (m : Memory) (id : Ident) (off : Nat) : Byte :=
  match Memory.find m id with
  | none => 0
  | some c => c.value.getD off 0

/-- Bit `i` of an identifier's bitmap, clear where no context is live (R27). -/
def Memory.readBit (m : Memory) (id : Ident) (i : Nat) : Bool :=
  match Memory.find m id with
  | none => false
  | some c => c.received.getD i false

/-- `BufWrite` (R16): the buffer with `bytes` written at offsets `off ..`. It never grows (R112). -/
def bufWrite (value : List Byte) (off : Nat) (bytes : List Byte) : List Byte :=
  value.mapIdx fun k b => if off ≤ k ∧ k < off + bytes.length then bytes.getD (k - off) 0 else b

/-- A new context: bitmap all clear, value all zero (R111). -/
def newContext (id : Ident) (size : Len) (nseg : Nat) : Context :=
  { id := id, size := size, received := clearBits nseg, value := List.replicate size.toNat 0 }

/-! ### Responses, events and offers -/

/-- `respond(status, segidx, tcode[, key])`: write the response slot. -/
def respond (st : Status) (segIdx : Byte) (tcode : TCode) (key : Option Word) (s : State) : State :=
  s.withResp (some { status := st, segIdx := segIdx, tcode := tcode, key := key })

/-- The answer to an illegal command (R69, R142): nothing but the response. -/
def respondIllegal (s : State) : State := respond .illegalCommand 0 0 none s

/-- `respond(OK, 0, 0)`. -/
def respondOk (s : State) : State := respond .ok 0 0 none s

/-- `Emit(event)`: append one event to `OUTQ`. -/
def emit (e : Event) (s : State) : State := s.withOutq (s.outq ++ [e])

/-- `CMD <- TXWAIT(..); TxSend(f)`: offer a frame on the TX port. The step ends here (R17). -/
def txSend (op : SendOp) (id : Ident) (size : Len) (nseg i : Nat) (record : List Byte) (f : Frame) (s : State) : State :=
  (s.withCmd (.txWait op id size nseg i record f)).withTxLog (s.txLog ++ [f])

/-- `CMD <- CTLWAIT(op); Ctrl(op)`: offer a request on the control port. The step ends here (R17). -/
def ctrl (op : CtlOp) (s : State) : State :=
  (s.withCmd (.ctlWait op)).withCtlLog (s.ctlLog ++ [op])

/-- `CMD <- IDLE`, then OK, or TRANSPORT_FAILURE with the transport's code verbatim and the failed segment's index
(R94, R97, R98, R129, R145). -/
def finish (i : Nat) (t : TRes) (s : State) : State :=
  match t with
  | .ok => respondOk (s.withCmd .idle)
  | .fail code => respond .transportFailure (BitVec.ofNat 8 i) code none (s.withCmd .idle)

/-- Reset (R162, R163): every piece of the block's state to its reset value, the offer withdrawn and its answer with it. The RX
port's frame stays (R163) and the command port's words stay (log entry 5). -/
def resetBlock (s : State) : State :=
  ((((((s.withExact []).withMasked []).withCtx []).withCmd .idle).withResp none).withOutq []).withAnswer none

end Sys2Proof.Machine
end

