-- ==== Sys2Proof/Machine/Addressing.lean ====
section
/-! DEFINITION. COMPOSE and the two match predicates (spec/40_addressing.md). -/

namespace Sys2Proof.Machine

/-- Exact match (R83): all 32 bits. -/
def ExactEntry.hits (e : ExactEntry) (k : Word) : Bool := e.key == k

/-- Masked match (R84). -/
def MaskedEntry.hits (e : MaskedEntry) (k : Word) : Bool := (k &&& e.mask) == (e.base &&& e.mask)

/-- COMPOSE (R86): the key word of a base address, a node id and a remote flag. -/
def execCompose (h : Header) (base : Word) (s : State) : Result :=
  if h.rsv ≠ 0 ∨ h.len ≠ 0 ∨ baseReserved base ≠ 0 then .next (respondIllegal s)
  else .next (respond .ok 0 0 (some (composeKey (baseField base) h.node h.rtr)) s)

end Sys2Proof.Machine
end

