-- ==== Sys2Proof/Machine/Channel.lean ====
section
/-! DEFINITION. OPEN and CLOSE, which pass through to the transport's control port (spec/44_transport.md R129 to R132). The
block keeps no open or closed bit (R132). -/

namespace Sys2Proof.Machine

/-- OPEN, first step (R130). -/
def execOpen (h : Header) (s : State) : Result :=
  if h.node ≠ 0 ∨ h.rtr = true ∨ h.rsv ≠ 0 ∨ h.len ≠ 0 then .next (respondIllegal s)
  else .next (ctrl .openChannel s)

/-- CLOSE, first step (R131). -/
def execClose (h : Header) (s : State) : Result :=
  if h.node ≠ 0 ∨ h.rtr = true ∨ h.rsv ≠ 0 ∨ h.len ≠ 0 then .next (respondIllegal s)
  else .next (ctrl .closeChannel s)

/-- OPEN's answer (R130). -/
def answerOpen (t : TRes) (s : State) : State := finish 0 t s

/-- CLOSE's answer (R131). -/
def answerClose (t : TRes) (s : State) : State := finish 0 t s

end Sys2Proof.Machine
end

