-- ==== Sys2Proof/Machine/Filter.lean ====
section
/-! DEFINITION. Selection, and the four commands that change the filter tables (spec/43_filter.md). -/

namespace Sys2Proof.Machine

/-- What a selected entry tells RXE: its `len` and its `tag` (R103). -/
structure Target where
  len : Len
  tag : Tag
  deriving DecidableEq, Repr

/-- `select(k)` (R119): the exact entry for the key, else the oldest masked entry that matches. -/
def select (exact : List ExactEntry) (masked : List MaskedEntry) (k : Word) : Option Target :=
  match exact.find? fun e => e.hits k with
  | some e => some { len := e.len, tag := e.tag }
  | none =>
    match masked.find? fun e => e.hits k with
    | some e => some { len := e.len, tag := e.tag }
    | none => none

/-- REGISTER (R121): add an exact entry. A table at or above its capacity is full (log entry 12). -/
def execRegister (h : Header) (key tag : Word) (s : State) : Result :=
  if h.node ≠ 0 ∨ h.rtr = true ∨ h.rsv ≠ 0 ∨ maxRecord < h.len.toNat ∨ keyReserved key = true ∨ tagReserved tag ≠ 0 then
    .next (respondIllegal s)
  else if s.exact.any (fun e => e.key == key) then .next (respond .entryExists 0 0 none s)
  else if s.params.nexact ≤ s.exact.length then .next (respond .tableFull 0 0 none s)
  else
    let e : ExactEntry := { key := key, len := h.len, tag := tagField tag }
    .next (respondOk (s.withExact (putBy (fun e => e.key.toNat) e s.exact)))

/-- REGISTER_MASKED (R122): add a masked entry at the end. -/
def execRegisterMasked (h : Header) (base mask tag : Word) (s : State) : Result :=
  if h.node ≠ 0 ∨ h.rtr = true ∨ h.rsv ≠ 0 ∨ maxRecord < h.len.toNat ∨ keyReserved base = true ∨ keyReserved mask = true
      ∨ tagReserved tag ≠ 0 then
    .next (respondIllegal s)
  else if s.masked.any (fun e => e.mask == mask && e.base == (base &&& mask)) then .next (respond .entryExists 0 0 none s)
  else if s.params.nmasked ≤ s.masked.length then .next (respond .tableFull 0 0 none s)
  else
    let e : MaskedEntry := { base := base &&& mask, mask := mask, len := h.len, tag := tagField tag }
    .next (respondOk (s.withMasked (s.masked ++ [e])))

/-- REMOVE (R123): remove the exact entry for a key; an absent key is no error. -/
def execRemove (h : Header) (key : Word) (s : State) : Result :=
  if h.node ≠ 0 ∨ h.rtr = true ∨ h.rsv ≠ 0 ∨ h.len ≠ 0 ∨ keyReserved key = true then .next (respondIllegal s)
  else .next (respondOk (s.withExact (s.exact.filter fun e => e.key != key)))

/-- REMOVE_MASKED (R124): remove the masked entry of a mask and a normalised base; the rest keep their order. -/
def execRemoveMasked (h : Header) (base mask : Word) (s : State) : Result :=
  if h.node ≠ 0 ∨ h.rtr = true ∨ h.rsv ≠ 0 ∨ h.len ≠ 0 ∨ keyReserved base = true ∨ keyReserved mask = true then
    .next (respondIllegal s)
  else .next (respondOk (s.withMasked (s.masked.filter fun e => !(e.mask == mask && e.base == (base &&& mask)))))

end Sys2Proof.Machine
end

