-- ==== Sys2Proof/Machine/Segmenter.lean ====
section
/-! DEFINITION. The frame segmenter: its arithmetic, its frame builders, the three send commands and their answer steps
(spec/41_segmenter.md). -/

namespace Sys2Proof.Machine

/-- `nseg(S)` (R88). -/
def nseg (size : Nat) : Nat := if size ≤ singleMax then 1 else (size + 6) / segPayload

/-- `seg_len(S, i)` (R89). -/
def segLen (size i : Nat) : Nat :=
  if i < nseg size - 1 then segPayload else size - segPayload * (nseg size - 1)

/-- `single_frame(id, S, rec)` (R90). -/
def singleFrame (id : Ident) (size : Nat) (record : List Byte) : Frame :=
  { ext := true, rtr := false, id := id, size := BitVec.ofNat 4 size
    data := dataOf fun k => if k < size then record.getD k 0 else 0 }

/-- `seg_frame(id, S, rec, i)` (R91). -/
def segFrame (id : Ident) (size : Nat) (record : List Byte) (i : Nat) : Frame :=
  { ext := true, rtr := false, id := id, size := BitVec.ofNat 4 (segLen size i + 1)
    data := dataOf fun k =>
      if k = 0 then BitVec.ofNat 8 i
      else if k < segLen size i + 1 then record.getD (segPayload * i + (k - 1)) 0
      else 0 }

/-- `frame_of(id, S, rec, i)` (R92). -/
def frameOf (id : Ident) (size : Nat) (record : List Byte) (i : Nat) : Frame :=
  if size ≤ singleMax then singleFrame id size record else segFrame id size record i

/-- The remote-request frame of SEND_QUERY (R64, R97). -/
def queryFrame (id : Ident) : Frame :=
  { ext := true, rtr := true, id := id, size := 0, data := dataOf fun _ => 0 }

/-- The frame of SEND_FRAME (R98): data bytes 0 to 3 in `W2`, 4 to 7 in `W3`, those at and past `size` sent as 0. -/
def rawFrame (rtr : Bool) (id : Ident) (size : Len) (w2 w3 : Word) : Frame :=
  { ext := true, rtr := rtr, id := id, size := size.setWidth 4
    data := dataOf fun k => if k < size.toNat then byteOf [w2, w3] k else 0 }

/-- SEND_FRAME, first step (R98). -/
def execSendFrame (h : Header) (id data0 data1 : Word) (s : State) : Result :=
  if h.node ≠ 0 ∨ h.rsv ≠ 0 ∨ 8 < h.len.toNat ∨ idReserved id ≠ 0 then .next (respondIllegal s)
  else .next (txSend .sendFrame 0 0 0 0 [] (rawFrame h.rtr (idField id) h.len data0 data1) s)

/-- SEND_RECORD, first step (R93). -/
def execSendRecord (h : Header) (base : Word) (data : List Word) (s : State) : Result :=
  if h.rtr = true ∨ h.rsv ≠ 0 ∨ h.len.toNat = 0 ∨ maxRecord < h.len.toNat ∨ baseReserved base ≠ 0 then
    .next (respondIllegal s)
  else
    let record := bytesOf data h.len.toNat
    let id := composeId (baseField base) h.node
    .next (txSend .sendRecord id h.len (nseg h.len.toNat) 0 record (frameOf id h.len.toNat record 0) s)

/-- SEND_QUERY, first step (R97). -/
def execSendQuery (h : Header) (base : Word) (s : State) : Result :=
  if h.rtr = true ∨ h.rsv ≠ 0 ∨ h.len ≠ 0 ∨ baseReserved base ≠ 0 then .next (respondIllegal s)
  else .next (txSend .sendQuery 0 0 0 0 [] (queryFrame (composeId (baseField base) h.node)) s)

/-! ### Answer steps -/

/-- SEND_FRAME's answer (R98). -/
def answerSendFrame (t : TRes) (s : State) : State := finish 0 t s

/-- SEND_QUERY's answer (R97). -/
def answerSendQuery (t : TRes) (s : State) : State := finish 0 t s

/-- SEND_RECORD's answer (R94, R95): stop at the first failure, respond after the last segment, else offer the next one. -/
def answerSendRecord (id : Ident) (size : Len) (n i : Nat) (record : List Byte) (t : TRes) (s : State) : State :=
  if t = .ok ∧ i + 1 ≠ n then
    txSend .sendRecord id size n (i + 1) record (frameOf id size.toNat record (i + 1)) s
  else finish i t s

end Sys2Proof.Machine
end

