-- ==== Sys2Proof/Machine/Dispatch.lean ====
section
/-! DEFINITION. One arm per command: CMD's first step of it (spec/20_memory.md R47 (1)). -/

namespace Sys2Proof.Machine

def exec (i : Instr) (s : State) : Host.Outcome State Fault Refusal :=
  match i with
  | .compose h base => Sys2Proof.Machine.execCompose h base s
  | .sendFrame h id data0 data1 => Sys2Proof.Machine.execSendFrame h id data0 data1 s
  | .sendRecord h base data => Sys2Proof.Machine.execSendRecord h base data s
  | .sendQuery h base => Sys2Proof.Machine.execSendQuery h base s
  | .register h key tag => Sys2Proof.Machine.execRegister h key tag s
  | .registerMasked h base mask tag => Sys2Proof.Machine.execRegisterMasked h base mask tag s
  | .remove h key => Sys2Proof.Machine.execRemove h key s
  | .removeMasked h base mask => Sys2Proof.Machine.execRemoveMasked h base mask s
  | .openChannel h => Sys2Proof.Machine.execOpen h s
  | .closeChannel h => Sys2Proof.Machine.execClose h s

end Sys2Proof.Machine
end

