-- ==== Sys2Proof/Machine/Reassembler.lean ====
section
/-! DEFINITION. The receive engine's step (spec/42_reassembler.md R103 to R117): port filter, selection, raw delivery,
single-frame check, multi-segment reassembly. -/

namespace Sys2Proof.Machine

/-- R109: a context of another record size is freed first, and no event says so. -/
def Memory.dropOtherSize (m : Memory) (id : Ident) (size : Len) : Memory :=
  match Memory.find m id with
  | some c => if c.size ≠ size then Memory.erase m id else m
  | none => m

/-- How many payload bytes are stored: `min(size - 1, S - 7*idx)` (R112). -/
def storedLen (frameSize size idx : Nat) : Nat := min (frameSize - 1) (size - segPayload * idx)

/-- The write of R112 into a context. -/
def Context.accept (c : Context) (f : Frame) (idx : Nat) : Context :=
  let payload := (f.data.toList.drop 1).take (storedLen f.size.toNat c.size.toNat idx)
  { c with
    value := bufWrite c.value (segPayload * idx) payload
    received := setBit c.received idx }

/-- R112 to R114: write the segment; if the bitmap is full, deliver the record and free the context, else keep it. -/
def storeSegment (tag : Tag) (f : Frame) (idx : Nat) (c : Context) (s : State) : State :=
  let c' := c.accept f idx
  if allSet c'.received then
    emit (.record tag f.key c'.size c'.value) (s.withCtx (Memory.erase s.ctx f.id))
  else s.withCtx (Memory.put s.ctx c')

/-- R110 and R111, with `CTX` holding no context of another size for the identifier (log entry 12 for the capacity test). -/
def takeIndexed (size : Len) (tag : Tag) (f : Frame) (s : State) : State :=
  let idx := (f.byte 0).toNat
  if nseg size.toNat ≤ idx then
    emit (.rxError tag f.key .invalidIndex f.size (f.byte 0)) (s.withCtx (Memory.erase s.ctx f.id))
  else
    match Memory.find s.ctx f.id with
    | some c => storeSegment tag f idx c s
    | none =>
      if s.params.nctx ≤ s.ctx.length then emit (.rxError tag f.key .ctxFull f.size (f.byte 0)) s
      else storeSegment tag f idx (newContext f.id size (nseg size.toNat)) s

/-- R108 to R114: a frame that matches an entry with `len > 8`. -/
def takeSegment (size : Len) (tag : Tag) (f : Frame) (s : State) : State :=
  if f.size = 0 then emit (.rxError tag f.key .invalidSize 0 0) s
  else takeIndexed size tag f (s.withCtx (Memory.dropOtherSize s.ctx f.id size))

/-- R107: a frame that matches an entry with `1 <= len <= 8`. -/
def takeSingle (size : Len) (tag : Tag) (f : Frame) (s : State) : State :=
  if f.size.toNat = size.toNat then emit (.record tag f.key size (f.data.toList.take size.toNat)) s
  else emit (.rxError tag f.key .invalidSize f.size 0) s

/-- R106: raw delivery. -/
def takeRaw (tag : Tag) (f : Frame) (s : State) : State :=
  emit (.frame tag f.key f.size (maskData f.size f.data)) s

/-- R106 to R114, once an entry is selected. -/
def takeSelected (t : Target) (f : Frame) (s : State) : State :=
  if f.rtr = true ∨ t.len.toNat = 0 then takeRaw t.tag f s
  else if t.len.toNat ≤ singleMax then takeSingle t.len t.tag f s
  else takeSegment t.len t.tag f s

/-- The whole step RXE(f) of R117, the frame in hand. -/
def receive (f : Frame) (s : State) : State :=
  if f.ext = false ∨ 8 < f.size.toNat then s
  else
    match select s.exact s.masked f.key with
    | none => s
    | some t => takeSelected t f s

end Sys2Proof.Machine
end

