-- ==== Sys2Proof/Machine/Agents.lean ====
section
/-! DEFINITION. The moves of the four agents (spec/00_scope.md R18, spec/20_memory.md R47). A turn of an agent that a hold
stops, or that the agent is assumed never to take (spec/44_transport.md R136, R137), leaves the state as it is (log entry 1). -/

namespace Sys2Proof.Machine

/-- CMD takes a command from its port (R47 (1), R127): exactly its words, and then its first step. An unknown opcode's one word
is answered ILLEGAL_COMMAND (R67, R69); an unfinished command waits (R136). -/
def takeCommand (s : State) : Result :=
  match decode s.cmdPort with
  | .ok (i, rest) => exec i (s.withCmdPort rest)
  | .error (.unknownOpcode _) => .next (respondIllegal (s.withCmdPort (s.cmdPort.drop 1)))
  | .error .incomplete => .next s
  | .error .noWord => .next s

/-- CMD takes the transport's answer (R47 (2), R128, R129) and runs the answer rule of the command in `CMD`. -/
def takeAnswer (t : TRes) (s : State) : State :=
  match s.cmd with
  | .idle => s
  | .txWait .sendFrame _ _ _ _ _ _ => answerSendFrame t s
  | .txWait .sendQuery _ _ _ _ _ _ => answerSendQuery t s
  | .txWait .sendRecord id size n i record _ => answerSendRecord id size n i record t s
  | .ctlWait .openChannel => answerOpen t s
  | .ctlWait .closeChannel => answerClose t s

/-- A turn of CMD. It holds while `RESP` is full, and while the transport has not answered (R127, R128, R173;
log entry 12 for an answer that finds `RESP` full). -/
def cmdMove (s : State) : Result :=
  if s.responseValid then .next s
  else if s.busy then
    match s.answer with
    | none => .next s
    | some t => .next (takeAnswer t (s.withAnswer none))
  else takeCommand s

/-- A turn of RXE (R47 (3)): it takes the offered frame, unless it holds (R100). -/
def rxeMove (s : State) : State :=
  if s.rxeReady then
    match s.rxPort with
    | none => s
    | some f => receive f (s.withRxPort none)
  else s

/-- A turn of the host (R136). It offers exactly one whole command, and only while the port is ready: words that are no command
or more than one, and a command behind an untaken one, are no move of the host (R126, R136; log entry 7). A read of the response
slot empties it (R134); a pop removes the head of `OUTQ` (R135). -/
def hostMove (a : HostAct) (s : State) : State :=
  match a with
  | .issue ws => if s.portReady && oneCommand ws then s.withCmdPort ws else s
  | .readResponse =>
    match s.resp with
    | none => s
    | some r => (s.withResp none).withRespLog (s.respLog ++ [r.words])
  | .popEvent =>
    match s.outq with
    | [] => s
    | e :: es => (s.withOutq es).withEventLog (s.eventLog ++ [e.words])
  | .assertReset => resetBlock s

/-- A turn of the transport (R137): it answers a pending offer once, and offers a frame while the RX port is free. An answer to
a withdrawn offer is ignored (R163, log entry 10). -/
def transportMove (a : TransportAct) (s : State) : State :=
  match a with
  | .answer t => if s.busy && s.answer.isNone then s.withAnswer (some t) else s
  | .answerWithdrawn _ => s
  | .offerFrame f =>
    match s.rxPort with
    | none => s.withRxPort (some f)
    | some _ => s

/-- One turn. -/
def move (m : Move) (s : State) : Result :=
  match m with
  | .host a => .next (hostMove a s)
  | .cmd => cmdMove s
  | .rxe => .next (rxeMove s)
  | .transport a => .next (transportMove a s)

/-- One step: the next turn of the schedule; with no turn left nobody moves and all state stays (R161). -/
def turn (s : State) : Result :=
  match s.script with
  | [] => .next s
  | m :: ms => move m (s.withScript ms)

/-- The state in which CMD's turn is next and exactly `ws` stands on the command port, CMD free to take it (R127). -/
def State.offering (s : State) (ws : List Word) : State :=
  (((s.withCmdPort ws).withCmd .idle).withResp none).withScript (.cmd :: s.script)

end Sys2Proof.Machine
end

