-- ==== Sys2Proof/Machine/Step.lean ====
section
/-! DEFINITION. The step: one turn of one agent, and how a command is placed before the block. -/

namespace Sys2Proof.Machine

/-- One indivisible transition of one agent (spec/00_scope.md R17). -/
def step (s : State) : Host.Outcome State Fault Refusal := turn s

/-- The state whose very next step is CMD's, taking the instruction whose bits are `w` from its port (log entry 2). -/
def State.withFetchWord (s : State) (nbits w : Nat) : State := s.offering (tableWords nbits w)

end Sys2Proof.Machine
end

