-- ==== Sys2Proof/Safety.lean ====
section
/-! DEFINITION. What counts as a safe state: the invariants the spec states of each piece of state (spec/10_state.md), written
field by field; what a hold is (spec/70_reset_and_hazards.md R173); and the runs that claims speak of. -/

namespace Sys2Proof.Machine

/-! ### The filter tables -/

/-- R23: a stored exact entry is legal. -/
def ExactEntry.wf (e : ExactEntry) : Bool := !keyReserved e.key && decide (e.len.toNat ≤ maxRecord)

/-- R22, R23: strictly rising keys (so at most one entry per key), each entry legal, at most `NEXACT`. -/
def exactWf (p : Params) (l : List ExactEntry) : Bool :=
  risingBy (fun e => e.key.toNat) l && l.all ExactEntry.wf && decide (l.length ≤ p.nexact)

/-- R25: a stored masked entry is legal and normalised. -/
def MaskedEntry.wf (e : MaskedEntry) : Bool :=
  !keyReserved e.base && !keyReserved e.mask && e.base &&& e.mask == e.base && decide (e.len.toNat ≤ maxRecord)

/-- No two entries of a list have the same pair `(base, mask)` (R24). -/
def pairsDistinct : List MaskedEntry → Bool
  | [] => true
  | e :: es => es.all (fun d => !(d.mask == e.mask && d.base == e.base)) && pairsDistinct es

/-- R24, R25. -/
def maskedWf (p : Params) (l : List MaskedEntry) : Bool :=
  pairsDistinct l && l.all MaskedEntry.wf && decide (l.length ≤ p.nmasked)

/-! ### `CTX` -/

/-- R26, R27: `9 <= S <= 1792`, `N` bitmap bits, not all clear, and not all set (a full bitmap completes, R113), `S` bytes. -/
def Context.wf (c : Context) : Bool :=
  decide (singleMax < c.size.toNat) && decide (c.size.toNat ≤ maxRecord)
    && c.received.length == nseg c.size.toNat && c.received.any (fun b => b) && !allSet c.received
    && c.value.length == c.size.toNat

/-- The canonical form: strictly rising identifiers, and no entry that reads as an absent one. -/
def Memory.wf (m : Memory) : Bool := risingBy (fun c => c.id.toNat) m && List.all m Context.wf

/-- R26: at most `NCTX` live contexts. -/
def ctxWf (p : Params) (m : Memory) : Bool := Memory.wf m && decide (m.length ≤ p.nctx)

/-! ### `CMD`, `RESP`, `OUTQ` and the ports -/

/-- A frame the block sends: extended (R99), at most 8 bytes (R36), every byte past `size` 0 (R75). -/
def sentFrameOk (f : Frame) : Bool :=
  f.ext && decide (f.size.toNat ≤ 8) && f.data == maskData f.size f.data

/-- R29: what a waiting command holds. -/
def Cmd.wf : Cmd → Bool
  | .idle => true
  | .txWait .sendRecord id size n i record f =>
    decide (1 ≤ size.toNat) && decide (size.toNat ≤ maxRecord) && n == nseg size.toNat && decide (i < n)
      && record.length == size.toNat && f == frameOf id size.toNat record i
  | .txWait _ id size n i record f => id == 0 && size == 0 && n == 0 && i == 0 && record == [] && sentFrameOk f
  | .ctlWait _ => true

/-- R70, R71: the fields that are 0 but for a TRANSPORT_FAILURE, and the key word of a COMPOSE that succeeds. -/
def Response.wf (r : Response) : Bool :=
  (r.status == .transportFailure || (r.segIdx == 0 && r.tcode == 0))
    && (r.key.isNone || r.status == .ok) && r.key.all (fun k => !keyReserved k)

/-- R73 to R75: an event's sizes, and the zeros it must hold. -/
def Event.wf : Event → Bool
  | .frame _ key size data => !keyReserved key && decide (size.toNat ≤ 8) && data == maskData size data
  | .record _ key size bytes =>
    !keyReserved key && decide (1 ≤ size.toNat) && decide (size.toNat ≤ maxRecord) && bytes.length == size.toNat
  | .rxError _ key cause size seg =>
    !keyReserved key && decide (size.toNat ≤ 8) && (cause != .invalidSize || seg == 0)

/-- R31. -/
def outqWf (p : Params) (q : List Event) : Bool := q.all Event.wf && decide (q.length ≤ p.outqDepth)

/-- The command port holds at most one command, whole or, where the host breaks its contract, truncated (R126, R136). -/
def cmdPortWf (ws : List Word) : Bool :=
  match ws with
  | [] => true
  | w0 :: _ => decide (ws.length ≤ commandWords w0)

/-- A waiting command has no response yet (R30, R127), an answer stands only for a pending offer (R128, R137), and the command
port holds one command at most (R126). -/
def portsWf (s : State) : Bool :=
  (!s.busy || s.resp.isNone) && (s.answer.isNone || s.busy) && cmdPortWf s.cmdPort

/-- The invariant of the block: every rule of spec/10_state.md that a state of a run obeys. -/
def State.wf (s : State) : Bool :=
  s.params.wf && exactWf s.params s.exact && maskedWf s.params s.masked && ctxWf s.params s.ctx
    && s.cmd.wf && s.resp.all Response.wf && outqWf s.params s.outq && portsWf s

/-! ### Holds (R173): a run stuck in one is not finished -/

/-- RXE holds: a frame is offered and `OUTQ` is full (R100). -/
def State.rxeHolds (s : State) : Bool := s.rxPort.isSome && !s.rxeReady

/-- CMD holds: it waits for the host to read `RESP` with a command on the port, for the transport's answer, or for the rest of
an unfinished command (R127, R128, R136). -/
def State.cmdHolds (s : State) : Bool :=
  (s.responseValid && !s.cmdPort.isEmpty) || (s.busy && s.answer.isNone)
    || (s.commandReady && !s.cmdPort.isEmpty && !wholeCommand s.cmdPort)

/-- The block is idle (R161): `CMD = IDLE`, and RXE has no frame to take. -/
def State.idle (s : State) : Bool := !s.busy && s.rxPort.isNone

/-! ### Runs -/

/-- RXE takes a list of frames one after another (R101), the host keeping `OUTQ` from filling. -/
def receiveAll (fs : List Frame) (s : State) : State := fs.foldl (fun s f => receive f s) s

/-- CMD takes a list of answers one after another, the offers of one command in between. -/
def answerAll (ts : List TRes) (s : State) : State := ts.foldl (fun s t => takeAnswer t s) s

/-- The frames of a record (R88, R92), in index order. -/
def framesOf (id : Ident) (size : Nat) (record : List Byte) : List Frame :=
  (List.range (nseg size)).map (frameOf id size record)

end Sys2Proof.Machine
end

