-- ==== Sys2Proof/Certificates/Slice0/Obligations.lean ====
section
/-! DEFINITION. The statements for the provers. Each docstring names the rules of spec/ the statement formalises. A response is
written out as the record the meaning leaves in `RESP`; an equation `… = .next { s with … }` is also the command's frame: every
field not named is unchanged. What a step offers on the TX or control port is what it appends to `txLog` or `ctlLog`, and what a
host read returns is what it appends to `respLog` or `eventLog` (log entry 6: how an output is observed is the model's own). -/

open Sys2Proof Sys2Proof.Machine

/-! ### Reset and invariants -/

/-- R162. -/
def Obligations.ResetSetsEveryPieceOfState : Prop :=
  (∀ s : State, ∃ t, move (.host .assertReset) s = .next t ∧
    t.exact = [] ∧ t.masked = [] ∧ t.ctx = [] ∧ t.cmd = .idle ∧ t.resp = none ∧ t.outq = [] ∧
    (∀ id off, Memory.readByte t.ctx id off = 0) ∧ (∀ id i, Memory.readBit t.ctx id i = false)) ∧
  (State.reset.exact = [] ∧ State.reset.masked = [] ∧ State.reset.ctx = [] ∧ State.reset.cmd = .idle ∧
    State.reset.resp = none ∧ State.reset.outq = [])

/-- R163. -/
def Obligations.ResetWithdrawsTheOffer : Prop :=
  ∀ s : State, s.busy = true → ∃ t, move (.host .assertReset) s = .next t ∧
    t.cmd = .idle ∧ t.answer = none ∧ t.resp = none ∧ t.respLog = s.respLog ∧ t.txLog = s.txLog ∧ t.ctlLog = s.ctlLog ∧
    (∀ a, move (.transport (.answer a)) t = .next t) ∧
    (∀ a u, move (.transport (.answerWithdrawn a)) u = .next u) ∧
    t.rxPort = s.rxPort ∧
    (∀ f, s.rxPort = some f → s.params.wf = true → move .rxe t = .next (receive f { t with rxPort := none }))

/-- The invariant `State.wf` holds at reset, for every choice of the capacities. -/
def Obligations.ResetMeetsTheInvariant : Prop :=
  State.reset.wf = true ∧ ∀ p : Params, p.wf = true → (State.resetWith p).wf = true

/-- The invariant `State.wf` (R22 to R27, R29 to R31, R36, R70, R73, R75, R99, R126) is kept by every step from every state. -/
def Obligations.EveryStepKeepsTheInvariant : Prop :=
  ∀ s t : State, s.wf = true → step s = .next t → t.wf = true

/-- R19: the capacities are fixed for a run. -/
def Obligations.NoStepChangesTheCapacities : Prop :=
  ∀ s t : State, step s = .next t → t.params = s.params

/-- R140, R155: no step faults, and none refuses. -/
def Obligations.EveryStepGoesOn : Prop :=
  ∀ s : State, ∃ t, step s = .next t

/-! ### Encodings -/

/-- Every command of the table, with every value of every field, is read back from its own words. -/
def Obligations.DecodeOfEncode : Prop :=
  ∀ (i : Instr) (rest : List Word), i.shaped = true → decode (encode i ++ rest) = .ok (i, rest)

/-- What the decoder reads is what stood there: no word is read as two commands, and no bit is dropped. -/
def Obligations.EncodeOfDecode : Prop :=
  ∀ (ws rest : List Word) (i : Instr), decode ws = .ok (i, rest) → ws = encode i ++ rest ∧ i.shaped = true

/-- Words written out in the spec (R78's syntax; 95_test_vectors.md) decode to the commands they stand for. -/
def Obligations.SampleWordsDecode : Prop :=
  decode [0x01058000, 0x00001234] = .ok (.compose ⟨5, true, 0, 0⟩ 0x1234, []) ∧
  decode [0x02000002, 0x00000105, 0x0000BBAA, 0] = .ok (.sendFrame ⟨0, false, 0, 2⟩ 0x105 0xBBAA 0, []) ∧
  decode [0x03030009, 0x10, 0xA3A2A1A0, 0xA7A6A5A4, 0xA8, 0x20000000]
    = .ok (.sendRecord ⟨3, false, 0, 9⟩ 0x10 [0xA3A2A1A0, 0xA7A6A5A4, 0xA8], [0x20000000]) ∧
  decode [0x04050000, 0x00001234] = .ok (.sendQuery ⟨5, false, 0, 0⟩ 0x1234, []) ∧
  decode [0x11000014, 0x00123400, 0x1FFFFF00, 9]
    = .ok (.registerMasked ⟨0, false, 0, 20⟩ 0x123400 0x1FFFFF00 9, []) ∧
  decode [0x21000000] = .ok (.closeChannel ⟨0, false, 0, 0⟩, []) ∧
  decode [0x05000000, 0x01050000] = .error (.unknownOpcode 5)

/-- R67: the length table, a function of `OPC` and `LEN` alone. -/
def Obligations.CommandLengthTable : Prop :=
  ∀ w0 : Word,
    let opc := (opcField w0).toNat
    let len := w0.toNat % 2 ^ 11
    commandWords w0 =
      (if opc = 0x01 then 2
      else if opc = 0x02 then 4
      else if opc = 0x03 then (if len = 0 then 2 else 2 + (len + 4 - 1) / 4)
      else if opc = 0x04 then 2
      else if opc = 0x10 then 3
      else if opc = 0x11 then 4
      else if opc = 0x12 then 2
      else if opc = 0x13 then 3
      else 1) ∧
    commandWords w0 ≤ 514

/-- R68, R69 (b) to (e): a command's meaning answers ILLEGAL_COMMAND, and does nothing else, exactly where the table says it is
illegal. -/
def Obligations.IllegalExactlyAsTheTableSays : Prop :=
  ∀ (i : Instr) (s : State),
    exec i s = .next { s with resp := some { status := .illegalCommand, segIdx := 0, tcode := 0, key := none } } ↔
      i.legal = false

/-- R69 (a): an unknown opcode takes one word and is answered ILLEGAL_COMMAND. -/
def Obligations.UnknownOpcodeTakesOneWord : Prop :=
  ∀ (s : State) (w0 : Word) (ws : List Word), s.commandReady = true → s.cmdPort = w0 :: ws →
    (opcField w0).toNat ∉ [0x01, 0x02, 0x03, 0x04, 0x10, 0x11, 0x12, 0x13, 0x20, 0x21] →
    move .cmd s = .next
      { s with
        cmdPort := ws
        resp := some { status := .illegalCommand, segIdx := 0, tcode := 0, key := none } }

/-- R67, R69, R136: CMD takes exactly a command's words, legal or not, and waits while they have not all come. -/
def Obligations.TakingACommandConsumesItsWords : Prop :=
  ∀ (s : State) (w0 : Word) (ws : List Word), s.commandReady = true → s.cmdPort = w0 :: ws →
    (commandWords w0 ≤ (w0 :: ws).length → ∃ t, move .cmd s = .next t ∧ t.cmdPort = (w0 :: ws).drop (commandWords w0)) ∧
    ((w0 :: ws).length < commandWords w0 → move .cmd s = .next s)

/-- The fields of a header word (R66), read off its bits. -/
abbrev headerBits (w0 : Word) : Header :=
  { node := w0.extractLsb' 16 8, rtr := w0.getLsbD 15, rsv := w0.extractLsb' 11 4, len := w0.extractLsb' 0 11 }

/-! ### Steps and holds -/

/-- A step at which CMD's turn is next, CMD is ready (R127) and a whole command stands on its port runs that command. -/
def Obligations.StepRunsTheDecodedCommand : Prop :=
  ∀ (s : State) (ms : List Move) (i : Instr) (rest : List Word),
    s.script = .cmd :: ms → s.commandReady = true → decode s.cmdPort = .ok (i, rest) →
    step s = exec i { s with script := ms, cmdPort := rest }

/-- R127, R161, R173: a held engine changes nothing; while the block is idle RXE changes nothing, and CMD nothing until a command
comes; and CMD takes no word while it is busy or `RESP` is full. -/
def Obligations.HoldsAndIdlenessKeepTheState : Prop :=
  ∀ s : State,
    (s.cmdHolds = true → move .cmd s = .next s) ∧
    (s.rxeHolds = true → move .rxe s = .next s) ∧
    (s.cmd = .idle → s.rxPort = none →
      s.idle = true ∧ move .rxe s = .next s ∧ (s.cmdPort = [] → move .cmd s = .next s)) ∧
    (s.commandReady = false → ∃ t, move .cmd s = .next t ∧ t.cmdPort = s.cmdPort)

/-- R126, R136, R137: each port into the block carries one thing at a time. The host puts one whole command on a free command port
and has no other move there; CMD's taking it frees the port; the transport puts one frame on a free RX port, and answers a
pending offer once. -/
def Obligations.PortsCarryOneThingAtATime : Prop :=
  ∀ s : State,
    (∀ w0 ws, s.cmdPort = [] → (w0 :: ws).length = commandWords w0 →
      move (.host (.issue (w0 :: ws))) s = .next { s with cmdPort := w0 :: ws }) ∧
    (∀ ws, (s.cmdPort ≠ [] ∨ ∀ w0 rest, ws = w0 :: rest → ws.length ≠ commandWords w0) →
      move (.host (.issue ws)) s = .next s) ∧
    (∀ w0 ws, s.cmdPort = w0 :: ws → (w0 :: ws).length = commandWords w0 → s.commandReady = true →
      ∃ t, move .cmd s = .next t ∧ t.cmdPort = []) ∧
    (∀ f, (s.rxPort = none → move (.transport (.offerFrame f)) s = .next { s with rxPort := some f }) ∧
      (s.rxPort ≠ none → move (.transport (.offerFrame f)) s = .next s)) ∧
    (∀ a, (s.cmd ≠ .idle → s.answer = none → move (.transport (.answer a)) s = .next { s with answer := some a }) ∧
      (s.cmd = .idle ∨ s.answer ≠ none → move (.transport (.answer a)) s = .next s))

/-! ### What the host reads -/

/-- R134. -/
def Obligations.ReadingTheResponse : Prop :=
  ∀ (s : State) (r : Response), s.resp = some r → ∃ t,
    move (.host .readResponse) s = .next t ∧
    t = { s with resp := none, respLog := s.respLog ++ [r.words] } ∧
    (s.cmd = .idle → t.commandReady = true)

/-- R135, R31, R51 (d): events are popped from the head, in the order they were appended. -/
def Obligations.PoppingAnEvent : Prop :=
  ∀ (s : State) (e : Event) (es : List Event), s.outq = e :: es → ∃ t,
    move (.host .popEvent) s = .next t ∧
    t = { s with outq := es, eventLog := s.eventLog ++ [e.words] } ∧
    (s.outq.length ≤ s.params.outqDepth → t.rxeReady = true)

/-- R70, R71: the fields of `R0`, and `R1` after it. -/
def Obligations.ResponseWordFields : Prop :=
  ∀ r : Response, ∃ r0 : Word, r.words = r0 :: r.key.toList ∧
    r0.toNat % 2 ^ 16 = r.tcode.toNat ∧ r0.toNat / 2 ^ 16 % 2 ^ 8 = r.segIdx.toNat ∧
    r0.toNat / 2 ^ 24 = (match r.status with
      | .ok => 0x00 | .transportFailure => 0x04 | .illegalCommand => 0x10 | .entryExists => 0x11 | .tableFull => 0x12)

/-- R72 to R74: the words of each kind of event. -/
def Obligations.EventWordFields : Prop :=
  (∀ tag key size data, ∃ e0 e2 d0 d1 : Word,
    (Event.frame tag key size data).words = [e0, key, e2, d0, d1] ∧
    e0.toNat = 0x80 * 2 ^ 24 + tag.toNat ∧ e2.toNat = size.toNat ∧
    (∀ k, k < 4 → lane d0 k = data.toList.getD k 0 ∧ lane d1 k = data.toList.getD (4 + k) 0)) ∧
  (∀ tag key size bytes, ∃ e0 e2 : Word,
    (Event.record tag key size bytes).words = e0 :: key :: e2 :: packWords bytes ∧
    e0.toNat = 0x81 * 2 ^ 24 + tag.toNat ∧ e2.toNat = size.toNat) ∧
  (∀ tag key cause size seg, ∃ e0 e2 : Word,
    (Event.rxError tag key cause size seg).words = [e0, key, e2] ∧
    e0.toNat = 0x82 * 2 ^ 24
      + (match cause with | .invalidSize => 1 | .invalidIndex => 2 | .ctxFull => 3) * 2 ^ 16 + tag.toNat ∧
    e2.toNat = seg.toNat * 2 ^ 16 + size.toNat)

/-- R43, R75: byte `k` of a byte string sits in word `k div 4`, lane `k mod 4`; the lanes past its end are 0. -/
def Obligations.PackedBytesSitInTheirLanes : Prop :=
  ∀ l : List Byte,
    (packWords l).length = (l.length + 4 - 1) / 4 ∧
    (∀ k, k < l.length →
      ((packWords l).getD (k / 4) 0).extractLsb' (8 * (k % 4)) 8 = l.getD k 0) ∧
    (∀ k, l.length ≤ k → ((packWords l).getD (k / 4) 0).extractLsb' (8 * (k % 4)) 8 = 0)

/-! ### Addressing -/

/-- R80. -/
def Obligations.IdentifierComposition : Prop :=
  ∀ (base : BaseAddr) (node : NodeId) (rtr : Bool),
    composeId base node = base.setWidth 29 <<< 8 ||| node.setWidth 29 ∧
    composeKey base node rtr = (BitVec.ofBool rtr).setWidth 32 <<< 30 ||| (composeId base node).setWidth 32

/-- R81. -/
def Obligations.DecompositionInvertsComposition : Prop :=
  (∀ (b : BaseAddr) (n : NodeId), baseOf (composeId b n) = b ∧ nodeOf (composeId b n) = n) ∧
  (∀ id : Ident, composeId (baseOf id) (nodeOf id) = id ∧ baseOf id = id.extractLsb' 8 21 ∧ nodeOf id = id.extractLsb' 0 8) ∧
  (∀ k : Word, rtrOf k = k.getLsbD 30 ∧ idOf k = k.extractLsb' 0 29) ∧
  (∀ (r : Bool) (id : Ident), rtrOf (keyOf r id) = r ∧ idOf (keyOf r id) = id ∧ keyReserved (keyOf r id) = false) ∧
  (∀ k : Word, keyReserved k = false → keyOf (rtrOf k) (idOf k) = k)

/-- R83, R84: exact match on all 32 bits, masked match on the mask's bits, and the stored form of the test. -/
def Obligations.MatchPredicates : Prop :=
  (∀ (e : ExactEntry) (k : Word), e.hits k = true ↔ e.key = k) ∧
  (∀ (e : MaskedEntry) (k : Word), e.hits k = true ↔ ∀ j, e.mask.getLsbD j = true → k.getLsbD j = e.base.getLsbD j) ∧
  (∀ (e : MaskedEntry) (k : Word), e.wf = true → (e.hits k = true ↔ k &&& e.mask = e.base)) ∧
  (∀ (e : ExactEntry) (id : Ident), e.hits (keyOf false id) = true → e.hits (keyOf true id) = false)

/-- R119: the exact entry for the key, else the least matching masked entry, else none. -/
def Obligations.SelectionOrder : Prop :=
  ∀ (p : Params) (exact : List ExactEntry) (masked : List MaskedEntry) (k : Word),
    exactWf p exact = true → maskedWf p masked = true →
    (∀ e ∈ exact, e.key = k → select exact masked k = some { len := e.len, tag := e.tag }) ∧
    ((∀ e ∈ exact, e.key ≠ k) →
      (∀ j, ∀ hj : j < masked.length, k &&& masked[j].mask = masked[j].base →
        (∀ i, ∀ hi : i < j, k &&& (masked[i]'(hi.trans hj)).mask ≠ (masked[i]'(hi.trans hj)).base) →
        select exact masked k = some { len := masked[j].len, tag := masked[j].tag }) ∧
      ((∀ e ∈ masked, k &&& e.mask ≠ e.base) → select exact masked k = none))

/-- R86. -/
def Obligations.ComposeCommand : Prop :=
  (∀ (w0 w1 : Word) (rest : List Word), opcField w0 = 0x01 →
    decode (w0 :: w1 :: rest) = .ok (.compose (headerBits w0) w1, rest)) ∧
  ∀ (h : Header) (base : Word) (s : State),
    (h.rsv = 0 → h.len = 0 → base.toNat < 2 ^ 21 →
      exec (.compose h base) s = .next
        { s with resp := some { status := .ok, segIdx := 0, tcode := 0, key := some (composeKey (base.setWidth 21) h.node h.rtr) } }) ∧
    ((h.rsv ≠ 0 ∨ h.len ≠ 0 ∨ 2 ^ 21 ≤ base.toNat) →
      exec (.compose h base) s = .next
        { s with resp := some { status := .illegalCommand, segIdx := 0, tcode := 0, key := none } })

/-! ### Segmenter -/

/-- R88. -/
def Obligations.SegmentCount : Prop :=
  ∀ size : Nat, 1 ≤ size → size ≤ 1792 →
    nseg size = (if size ≤ 8 then 1 else (size + 7 - 1) / 7) ∧
    (8 < size → 2 ≤ nseg size ∧ nseg size ≤ 256) ∧
    nseg 9 = 2 ∧ nseg 1785 = 255 ∧ (1786 ≤ size → nseg size = 256)

/-- R89, R40: the segments tile the record. -/
def Obligations.SegmentsTileTheRecord : Prop :=
  ∀ size : Nat, 8 < size → size ≤ 1792 →
    (∀ i, i + 1 < nseg size → segLen size i = 7) ∧
    segLen size (nseg size - 1) = size - 7 * (nseg size - 1) ∧
    (∀ i, i < nseg size → 1 ≤ segLen size i ∧ segLen size i ≤ 7 ∧ 7 * i + segLen size i = min (7 * i + 7) size) ∧
    (∀ k, k < size → k / 7 < nseg size ∧ k % 7 < segLen size (k / 7))

/-- R90. -/
def Obligations.SingleFrameLayout : Prop :=
  ∀ (id : Ident) (size : Nat) (record : List Byte), 1 ≤ size → size ≤ 8 → record.length = size →
    let f := frameOf id size record 0
    f.ext = true ∧ f.rtr = false ∧ f.id = id ∧ f.size.toNat = size ∧
    (∀ k, k < size → f.byte k = record.getD k 0) ∧ (∀ k, size ≤ k → f.byte k = 0)

/-- R91. -/
def Obligations.SegmentFrameLayout : Prop :=
  ∀ (id : Ident) (size : Nat) (record : List Byte) (i : Nat), 8 < size → size ≤ 1792 → record.length = size → i < nseg size →
    let f := frameOf id size record i
    let n := segLen size i
    f.ext = true ∧ f.rtr = false ∧ f.id = id ∧ f.size.toNat = n + 1 ∧
    (f.byte 0).toNat = i ∧ (∀ j, j < n → f.byte (1 + j) = record.getD (7 * i + j) 0) ∧ (∀ k, n + 1 ≤ k → f.byte k = 0)

/-- R99: whatever a step offers on the TX port is one frame, and an extended one. -/
def Obligations.EverySentFrameIsExtended : Prop :=
  ∀ s t : State, step s = .next t → t.txLog = s.txLog ∨ ∃ f, t.txLog = s.txLog ++ [f] ∧ f.ext = true

/-- R93: SEND_RECORD's words and its first step. -/
def Obligations.SendRecordCommand : Prop :=
  (∀ (w0 w1 : Word) (data rest : List Word), opcField w0 = 0x03 → data.length = ((headerBits w0).len.toNat + 3) / 4 →
    decode (w0 :: w1 :: (data ++ rest)) = .ok (.sendRecord (headerBits w0) w1 data, rest)) ∧
  ∀ (h : Header) (base : Word) (data : List Word) (s : State), data.length = (h.len.toNat + 3) / 4 →
    (h.rtr = false → h.rsv = 0 → 1 ≤ h.len.toNat → h.len.toNat ≤ 1792 → base.toNat < 2 ^ 21 →
      ∃ (record : List Byte) (f : Frame),
        record.length = h.len.toNat ∧
        (∀ k, k < h.len.toNat → record.getD k 0 = (data.getD (k / 4) 0).extractLsb' (8 * (k % 4)) 8) ∧
        f = frameOf (composeId (base.setWidth 21) h.node) h.len.toNat record 0 ∧
        exec (.sendRecord h base data) s = .next
          { s with
            cmd := .txWait .sendRecord (composeId (base.setWidth 21) h.node) h.len (nseg h.len.toNat) 0 record f
            txLog := s.txLog ++ [f] }) ∧
    ((h.rtr = true ∨ h.rsv ≠ 0 ∨ h.len.toNat = 0 ∨ 1792 < h.len.toNat ∨ 2 ^ 21 ≤ base.toNat) →
      exec (.sendRecord h base data) s = .next
        { s with resp := some { status := .illegalCommand, segIdx := 0, tcode := 0, key := none } })

/-- R94: CMD's step on the transport's answer to a segment. -/
def Obligations.SendRecordAnswers : Prop :=
  ∀ (s : State) (id : Ident) (size : Len) (n i : Nat) (record : List Byte) (f : Frame) (a : TRes),
    s.cmd = .txWait .sendRecord id size n i record f → s.resp = none → s.answer = some a →
    (∀ code, a = .fail code →
      move .cmd s = .next
        { s with
          answer := none, cmd := .idle
          resp := some { status := .transportFailure, segIdx := BitVec.ofNat 8 i, tcode := code, key := none } }) ∧
    (a = .ok → i + 1 = n →
      move .cmd s = .next
        { s with answer := none, cmd := .idle, resp := some { status := .ok, segIdx := 0, tcode := 0, key := none } }) ∧
    (a = .ok → i + 1 ≠ n →
      let f' := frameOf id size.toNat record (i + 1)
      move .cmd s = .next
        { s with
          answer := none, cmd := .txWait .sendRecord id size n (i + 1) record f', txLog := s.txLog ++ [f'] })

/-- R93, R94, R51 (e): with every answer `OK`, a SEND_RECORD offers the record's frames, each once, in index order, and responds
OK. -/
def Obligations.SendRecordSendsEverySegmentInOrder : Prop :=
  ∀ (h : Header) (base : Word) (data : List Word) (s : State),
    (Instr.sendRecord h base data).wellFormed = true → ∃ t, exec (.sendRecord h base data) s = .next t ∧
      answerAll (List.replicate (nseg h.len.toNat) .ok) t =
        { s with
          cmd := .idle, resp := some { status := .ok, segIdx := 0, tcode := 0, key := none }
          txLog := s.txLog ++
            framesOf (composeId (base.setWidth 21) h.node) h.len.toNat (bytesOf data h.len.toNat) }

/-- R95, R145: at the first failure, of segment `k`, the segments after it are never offered, and the response names `k` and the
transport's code. -/
def Obligations.SendRecordStopsAtTheFirstFailure : Prop :=
  ∀ (h : Header) (base : Word) (data : List Word) (s : State) (k : Nat) (code : TCode),
    (Instr.sendRecord h base data).wellFormed = true → k < nseg h.len.toNat → ∃ t, exec (.sendRecord h base data) s = .next t ∧
      answerAll (List.replicate k .ok ++ [.fail code]) t =
        { s with
          cmd := .idle
          resp := some { status := .transportFailure, segIdx := BitVec.ofNat 8 k, tcode := code, key := none }
          txLog := s.txLog ++
            (framesOf (composeId (base.setWidth 21) h.node) h.len.toNat (bytesOf data h.len.toNat)).take (k + 1) }

/-- R97: SEND_QUERY's words, its first step and its answer. -/
def Obligations.SendQueryCommand : Prop :=
  (∀ (w0 w1 : Word) (rest : List Word), opcField w0 = 0x04 →
    decode (w0 :: w1 :: rest) = .ok (.sendQuery (headerBits w0) w1, rest)) ∧
  (∀ (h : Header) (base : Word) (s : State),
    (h.rtr = false → h.rsv = 0 → h.len = 0 → base.toNat < 2 ^ 21 →
      ∃ f : Frame, f.ext = true ∧ f.rtr = true ∧ f.id = composeId (base.setWidth 21) h.node ∧ f.size = 0 ∧
        (∀ k, f.byte k = 0) ∧
        exec (.sendQuery h base) s = .next
          { s with cmd := .txWait .sendQuery 0 0 0 0 [] f, txLog := s.txLog ++ [f] }) ∧
    ((h.rtr = true ∨ h.rsv ≠ 0 ∨ h.len ≠ 0 ∨ 2 ^ 21 ≤ base.toNat) →
      exec (.sendQuery h base) s = .next
        { s with resp := some { status := .illegalCommand, segIdx := 0, tcode := 0, key := none } })) ∧
  (∀ (s : State) (f : Frame) (a : TRes), s.cmd = .txWait .sendQuery 0 0 0 0 [] f → s.resp = none → s.answer = some a →
    move .cmd s = .next
      { s with
        answer := none, cmd := .idle
        resp := some (match a with
          | .ok => { status := .ok, segIdx := 0, tcode := 0, key := none }
          | .fail code => { status := .transportFailure, segIdx := 0, tcode := code, key := none }) })

/-- R98: SEND_FRAME's words, its first step and its answer. -/
def Obligations.SendFrameCommand : Prop :=
  (∀ (w0 w1 w2 w3 : Word) (rest : List Word), opcField w0 = 0x02 →
    decode (w0 :: w1 :: w2 :: w3 :: rest) = .ok (.sendFrame (headerBits w0) w1 w2 w3, rest)) ∧
  (∀ (h : Header) (id data0 data1 : Word) (s : State),
    (h.node = 0 → h.rsv = 0 → h.len.toNat ≤ 8 → id.toNat < 2 ^ 29 →
      ∃ f : Frame, f.ext = true ∧ f.rtr = h.rtr ∧ f.id = id.setWidth 29 ∧ f.size.toNat = h.len.toNat ∧
        (∀ k, k < h.len.toNat → f.byte k = (if k < 4 then data0 else data1).extractLsb' (8 * (k % 4)) 8) ∧
        (∀ k, h.len.toNat ≤ k → f.byte k = 0) ∧
        exec (.sendFrame h id data0 data1) s = .next
          { s with cmd := .txWait .sendFrame 0 0 0 0 [] f, txLog := s.txLog ++ [f] }) ∧
    ((h.node ≠ 0 ∨ h.rsv ≠ 0 ∨ 8 < h.len.toNat ∨ 2 ^ 29 ≤ id.toNat) →
      exec (.sendFrame h id data0 data1) s = .next
        { s with resp := some { status := .illegalCommand, segIdx := 0, tcode := 0, key := none } })) ∧
  (∀ (s : State) (f : Frame) (a : TRes), s.cmd = .txWait .sendFrame 0 0 0 0 [] f → s.resp = none → s.answer = some a →
    move .cmd s = .next
      { s with
        answer := none, cmd := .idle
        resp := some (match a with
          | .ok => { status := .ok, segIdx := 0, tcode := 0, key := none }
          | .fail code => { status := .transportFailure, segIdx := 0, tcode := code, key := none }) })

/-! ### Filter commands -/

/-- R121. `EXACT` is a set: its new contents are said by membership. -/
def Obligations.RegisterCommand : Prop :=
  (∀ (w0 w1 w2 : Word) (rest : List Word), opcField w0 = 0x10 →
    decode (w0 :: w1 :: w2 :: rest) = .ok (.register (headerBits w0) w1 w2, rest)) ∧
  ∀ (h : Header) (key tag : Word) (s : State),
    let legal := h.node = 0 ∧ h.rtr = false ∧ h.rsv = 0 ∧ h.len.toNat ≤ 1792 ∧ keyReserved key = false ∧ tag.toNat < 2 ^ 16
    (¬ legal → exec (.register h key tag) s = .next
      { s with resp := some { status := .illegalCommand, segIdx := 0, tcode := 0, key := none } }) ∧
    (legal → (∃ e ∈ s.exact, e.key = key) → exec (.register h key tag) s = .next
      { s with resp := some { status := .entryExists, segIdx := 0, tcode := 0, key := none } }) ∧
    (legal → (∀ e ∈ s.exact, e.key ≠ key) → s.exact.length = s.params.nexact → exec (.register h key tag) s = .next
      { s with resp := some { status := .tableFull, segIdx := 0, tcode := 0, key := none } }) ∧
    (legal → (∀ e ∈ s.exact, e.key ≠ key) → s.exact.length < s.params.nexact → ∃ l,
      (∀ e, e ∈ l ↔ e = { key := key, len := h.len, tag := tag.setWidth 16 } ∨ e ∈ s.exact) ∧
      l.length = s.exact.length + 1 ∧
      exec (.register h key tag) s = .next
        { s with exact := l, resp := some { status := .ok, segIdx := 0, tcode := 0, key := none } })

/-- R122. -/
def Obligations.RegisterMaskedCommand : Prop :=
  (∀ (w0 w1 w2 w3 : Word) (rest : List Word), opcField w0 = 0x11 →
    decode (w0 :: w1 :: w2 :: w3 :: rest) = .ok (.registerMasked (headerBits w0) w1 w2 w3, rest)) ∧
  ∀ (h : Header) (base mask tag : Word) (s : State),
    let legal := h.node = 0 ∧ h.rtr = false ∧ h.rsv = 0 ∧ h.len.toNat ≤ 1792 ∧ keyReserved base = false ∧
      keyReserved mask = false ∧ tag.toNat < 2 ^ 16
    let known := ∃ e ∈ s.masked, e.mask = mask ∧ e.base = base &&& mask
    (¬ legal → exec (.registerMasked h base mask tag) s = .next
      { s with resp := some { status := .illegalCommand, segIdx := 0, tcode := 0, key := none } }) ∧
    (legal → known → exec (.registerMasked h base mask tag) s = .next
      { s with resp := some { status := .entryExists, segIdx := 0, tcode := 0, key := none } }) ∧
    (legal → ¬ known → s.masked.length = s.params.nmasked → exec (.registerMasked h base mask tag) s = .next
      { s with resp := some { status := .tableFull, segIdx := 0, tcode := 0, key := none } }) ∧
    (legal → ¬ known → s.masked.length < s.params.nmasked → exec (.registerMasked h base mask tag) s = .next
      { s with
        masked := s.masked ++ [{ base := base &&& mask, mask := mask, len := h.len, tag := tag.setWidth 16 }]
        resp := some { status := .ok, segIdx := 0, tcode := 0, key := none } })

/-- R123. -/
def Obligations.RemoveCommand : Prop :=
  (∀ (w0 w1 : Word) (rest : List Word), opcField w0 = 0x12 →
    decode (w0 :: w1 :: rest) = .ok (.remove (headerBits w0) w1, rest)) ∧
  ∀ (h : Header) (key : Word) (s : State),
    let legal := h.node = 0 ∧ h.rtr = false ∧ h.rsv = 0 ∧ h.len = 0 ∧ keyReserved key = false
    (¬ legal → exec (.remove h key) s = .next
      { s with resp := some { status := .illegalCommand, segIdx := 0, tcode := 0, key := none } }) ∧
    (legal → ∃ l, (∀ e, e ∈ l ↔ e ∈ s.exact ∧ e.key ≠ key) ∧ l.Sublist s.exact ∧
      exec (.remove h key) s = .next
        { s with exact := l, resp := some { status := .ok, segIdx := 0, tcode := 0, key := none } })

/-- R124. -/
def Obligations.RemoveMaskedCommand : Prop :=
  (∀ (w0 w1 w2 : Word) (rest : List Word), opcField w0 = 0x13 →
    decode (w0 :: w1 :: w2 :: rest) = .ok (.removeMasked (headerBits w0) w1 w2, rest)) ∧
  ∀ (h : Header) (base mask : Word) (s : State),
    let legal := h.node = 0 ∧ h.rtr = false ∧ h.rsv = 0 ∧ h.len = 0 ∧ keyReserved base = false ∧ keyReserved mask = false
    (¬ legal → exec (.removeMasked h base mask) s = .next
      { s with resp := some { status := .illegalCommand, segIdx := 0, tcode := 0, key := none } }) ∧
    (legal → exec (.removeMasked h base mask) s = .next
      { s with
        masked := s.masked.filter fun e => decide (¬ (e.mask = mask ∧ e.base = base &&& mask))
        resp := some { status := .ok, segIdx := 0, tcode := 0, key := none } })

/-! ### Channel -/

/-- R129 to R131: the words of OPEN and CLOSE, their first steps and their answer. -/
def Obligations.ChannelCommands : Prop :=
  (∀ (w0 : Word) (rest : List Word),
    (opcField w0 = 0x20 → decode (w0 :: rest) = .ok (.openChannel (headerBits w0), rest)) ∧
    (opcField w0 = 0x21 → decode (w0 :: rest) = .ok (.closeChannel (headerBits w0), rest))) ∧
  (∀ (h : Header) (s : State),
    let legal := h.node = 0 ∧ h.rtr = false ∧ h.rsv = 0 ∧ h.len = 0
    (legal → exec (.openChannel h) s = .next
        { s with cmd := .ctlWait .openChannel, ctlLog := s.ctlLog ++ [.openChannel] } ∧
      exec (.closeChannel h) s = .next
        { s with cmd := .ctlWait .closeChannel, ctlLog := s.ctlLog ++ [.closeChannel] }) ∧
    (¬ legal → exec (.openChannel h) s = .next
        { s with resp := some { status := .illegalCommand, segIdx := 0, tcode := 0, key := none } } ∧
      exec (.closeChannel h) s = .next
        { s with resp := some { status := .illegalCommand, segIdx := 0, tcode := 0, key := none } })) ∧
  (∀ (s : State) (op : CtlOp) (a : TRes), s.cmd = .ctlWait op → s.resp = none → s.answer = some a →
    move .cmd s = .next
      { s with
        answer := none, cmd := .idle
        resp := some (match a with
          | .ok => { status := .ok, segIdx := 0, tcode := 0, key := none }
          | .fail code => { status := .transportFailure, segIdx := 0, tcode := code, key := none }) })

/-! ### Who writes what -/

/-- R28: only RXE reads or writes a context. No other move but reset writes one; and no other move, and no command's first step,
does anything else when the contexts are other ones. -/
def Obligations.OnlyTheReceiveEngineTouchesContexts : Prop :=
  (∀ (m : Move) (s t : State), m ≠ .rxe → m ≠ .host .assertReset → move m s = .next t →
    t.ctx = s.ctx ∧ ∀ c : Memory, move m { s with ctx := c } = .next { t with ctx := c }) ∧
  (∀ (i : Instr) (s t : State), exec i s = .next t →
    t.ctx = s.ctx ∧ ∀ c : Memory, exec i { s with ctx := c } = .next { t with ctx := c })

/-- R31: only RXE appends to `OUTQ`, at most one event a step, and only the host's pop (or reset) removes. -/
def Obligations.OnlyTheReceiveEngineAppendsEvents : Prop :=
  ∀ (m : Move) (s t : State), move m s = .next t →
    (m ≠ .rxe → m ≠ .host .popEvent → m ≠ .host .assertReset → t.outq = s.outq) ∧
    (m = .host .popEvent → t.outq = s.outq.tail) ∧
    (m = .rxe → t.outq = s.outq ∨ ∃ e, t.outq = s.outq ++ [e])

/-! ### Receive path -/

/-- R100: RXE takes the offered frame only while `OUTQ` has a free entry. -/
def Obligations.ReceiveEngineTakesOneFrame : Prop :=
  ∀ (s : State) (f : Frame), s.rxPort = some f →
    (s.outq.length < s.params.outqDepth → move .rxe s = .next (receive f { s with rxPort := none })) ∧
    (s.params.outqDepth ≤ s.outq.length → move .rxe s = .next s) ∧
    ((receive f s).outq = s.outq ∨ ∃ e, (receive f s).outq = s.outq ++ [e]) ∧
    (∀ e es, s.outq = e :: es → s.outq.length = s.params.outqDepth →
      (hostMove .popEvent s).rxeReady = true ∧ (hostMove .popEvent s).rxPort = some f)

/-- R104, R105: the port filter and a frame that no entry matches change nothing. -/
def Obligations.DroppedFramesChangeNothing : Prop :=
  ∀ (s : State) (f : Frame),
    (f.ext = false ∨ 8 < f.size.toNat → receive f s = s) ∧
    (select s.exact s.masked f.key = none → receive f s = s)

/-- R106: raw delivery. -/
def Obligations.RawDelivery : Prop :=
  ∀ (s : State) (f : Frame) (t : Target), f.ext = true → f.size.toNat ≤ 8 → select s.exact s.masked f.key = some t →
    (f.rtr = true ∨ t.len = 0) → ∃ d : Vector Byte 8,
      (∀ k, k < f.size.toNat → d.toList.getD k 0 = f.byte k) ∧ (∀ k, f.size.toNat ≤ k → d.toList.getD k 0 = 0) ∧
      receive f s = { s with outq := s.outq ++ [.frame t.tag f.key f.size d] }

/-- R107: a single-frame record. -/
def Obligations.SingleFrameRecord : Prop :=
  ∀ (s : State) (f : Frame) (t : Target), f.ext = true → f.size.toNat ≤ 8 → f.rtr = false →
    select s.exact s.masked f.key = some t → 1 ≤ t.len.toNat → t.len.toNat ≤ 8 →
    (f.size.toNat = t.len.toNat →
      receive f s = { s with outq := s.outq ++ [.record t.tag f.key t.len (f.data.toList.take t.len.toNat)] }) ∧
    (f.size.toNat ≠ t.len.toNat →
      receive f s = { s with outq := s.outq ++ [.rxError t.tag f.key .invalidSize f.size 0] })

/-- R108: a multi-segment frame with no index byte. -/
def Obligations.MissingIndex : Prop :=
  ∀ (s : State) (f : Frame) (t : Target), f.ext = true → f.rtr = false → f.size = 0 →
    select s.exact s.masked f.key = some t → 8 < t.len.toNat →
    receive f s = { s with outq := s.outq ++ [.rxError t.tag f.key .invalidSize 0 0] }

/-- R110, R147: an out-of-range index frees the identifier's context and no other. -/
def Obligations.OutOfRangeIndex : Prop :=
  ∀ (s : State) (f : Frame) (t : Target), f.ext = true → f.rtr = false → 1 ≤ f.size.toNat → f.size.toNat ≤ 8 →
    select s.exact s.masked f.key = some t → 8 < t.len.toNat → nseg t.len.toNat ≤ (f.byte 0).toNat → ∃ m : Memory,
      Memory.find m f.id = none ∧ (∀ id, id ≠ f.id → Memory.find m id = Memory.find s.ctx id) ∧
      (Memory.find s.ctx f.id = none → m = s.ctx) ∧
      receive f s = { s with ctx := m, outq := s.outq ++ [.rxError t.tag f.key .invalidIndex f.size (f.byte 0)] }

/-- R148, R111: a valid segment of a new identifier with no context free. -/
def Obligations.NoFreeContext : Prop :=
  ∀ (s : State) (f : Frame) (t : Target), f.ext = true → f.rtr = false → 1 ≤ f.size.toNat → f.size.toNat ≤ 8 →
    select s.exact s.masked f.key = some t → 8 < t.len.toNat → (f.byte 0).toNat < nseg t.len.toNat →
    Memory.find s.ctx f.id = none → s.ctx.length = s.params.nctx →
    receive f s = { s with outq := s.outq ++ [.rxError t.tag f.key .ctxFull f.size (f.byte 0)] }

/-- R109, R111, R112, R114: a valid segment that does not complete its record writes exactly its bytes and its bit, into the
context the identifier has after the other-size discard, or into a new one. -/
def Obligations.SegmentWritesItsBytesAndItsBit : Prop :=
  ∀ (s : State) (f : Frame) (t : Target), s.wf = true → f.ext = true → f.rtr = false → 1 ≤ f.size.toNat → f.size.toNat ≤ 8 →
    select s.exact s.masked f.key = some t → 8 < t.len.toNat →
    let idx := (f.byte 0).toNat
    let before := Memory.dropOtherSize s.ctx f.id t.len
    let stored := min (f.size.toNat - 1) (t.len.toNat - 7 * idx)
    idx < nseg t.len.toNat →
    (Memory.find before f.id = none → before.length < s.params.nctx) →
    (∃ j, j < nseg t.len.toNat ∧ j ≠ idx ∧ Memory.readBit before f.id j = false) → ∃ m : Memory,
      receive f s = { s with ctx := m } ∧
      Memory.readBit m f.id idx = true ∧
      (∀ j, j ≠ idx → Memory.readBit m f.id j = Memory.readBit before f.id j) ∧
      (∀ off, 7 * idx ≤ off → off < 7 * idx + stored → Memory.readByte m f.id off = f.byte (1 + (off - 7 * idx))) ∧
      (∀ off, (off < 7 * idx ∨ 7 * idx + stored ≤ off) → Memory.readByte m f.id off = Memory.readByte before f.id off) ∧
      (∀ id, id ≠ f.id → ∀ off, Memory.readByte m id off = Memory.readByte s.ctx id off)

/-- R113: the segment that fills the bitmap delivers the record and frees the context in the same step. -/
def Obligations.CompletionDeliversTheRecord : Prop :=
  ∀ (s : State) (f : Frame) (t : Target) (c : Context), s.wf = true → f.ext = true → f.rtr = false → 1 ≤ f.size.toNat →
    f.size.toNat ≤ 8 → select s.exact s.masked f.key = some t → 8 < t.len.toNat →
    Memory.find s.ctx f.id = some c → c.size = t.len →
    let idx := (f.byte 0).toNat
    let stored := min (f.size.toNat - 1) (t.len.toNat - 7 * idx)
    idx < nseg t.len.toNat → (∀ j, j < nseg t.len.toNat → j ≠ idx → Memory.readBit s.ctx f.id j = true) →
    ∃ (m : Memory) (v : List Byte),
      v.length = t.len.toNat ∧
      (∀ off, off < t.len.toNat → v.getD off 0 =
        if 7 * idx ≤ off ∧ off < 7 * idx + stored then f.byte (1 + (off - 7 * idx)) else Memory.readByte s.ctx f.id off) ∧
      Memory.find m f.id = none ∧ (∀ id, id ≠ f.id → Memory.find m id = Memory.find s.ctx id) ∧
      receive f s = { s with ctx := m, outq := s.outq ++ [.record t.tag f.key t.len v] }

/-- R115: a frame leaves the contexts of every other identifier as they are. -/
def Obligations.OtherIdentifiersAreUntouched : Prop :=
  ∀ (s : State) (f : Frame) (id : Ident), id ≠ f.id →
    Memory.find (receive f s).ctx id = Memory.find s.ctx id ∧
    ∀ off, Memory.readByte (receive f s).ctx id off = Memory.readByte s.ctx id off

/-- R118 (b): a multi-segment frame that leaves its record incomplete changes nothing when it is delivered again. -/
def Obligations.RedeliveryIsIdempotent : Prop :=
  ∀ (s : State) (f : Frame) (t : Target), s.wf = true → f.ext = true → f.rtr = false → f.size.toNat ≤ 8 →
    select s.exact s.masked f.key = some t → 8 < t.len.toNat →
    (receive f s).outq = s.outq → receive f (receive f s) = receive f s

/-- R96, R118 (d): the one frame of a record of at most 8 bytes yields that record. -/
def Obligations.SingleFrameRoundTrip : Prop :=
  ∀ (s : State) (id : Ident) (len : Len) (tag : Tag) (record : List Byte),
    1 ≤ len.toNat → len.toNat ≤ 8 → record.length = len.toNat →
    select s.exact s.masked (keyOf false id) = some { len := len, tag := tag } →
    receive (frameOf id len.toNat record 0) s = { s with outq := s.outq ++ [.record tag (keyOf false id) len record] }

/-- R96, R118 (a): the segments of one record, in any order, to an identifier with no context, yield one RECORD event, on the last
of them, with the record's bytes, and leave `CTX` as it was. -/
def Obligations.ReassemblyInAnyOrder : Prop :=
  ∀ (s : State) (id : Ident) (len : Len) (tag : Tag) (record : List Byte) (order : List Nat),
    s.wf = true → 8 < len.toNat → len.toNat ≤ 1792 → record.length = len.toNat →
    select s.exact s.masked (keyOf false id) = some { len := len, tag := tag } →
    Memory.find s.ctx id = none → s.ctx.length < s.params.nctx →
    order.Perm (List.range (nseg len.toNat)) →
    (∀ k, k < nseg len.toNat → (receiveAll ((order.take k).map (frameOf id len.toNat record)) s).outq = s.outq) ∧
    receiveAll (order.map (frameOf id len.toNat record)) s
      = { s with outq := s.outq ++ [.record tag (keyOf false id) len record] }
end

