-- ==== Sys2Proof/Laws/Maps.lean ====
section
/-! SUPPORT. Lists in strictly rising key order: what `putBy` and removal do to membership, order, length and lookup. -/

namespace Sys2Proof.Machine

variable {α : Type} {key : α → Nat}

theorem risingBy_iff_pairwise (l : List α) : risingBy key l = true ↔ l.Pairwise (fun x y => key x < key y) := by
  induction l with
  | nil => simp [risingBy]
  | cons x l ih =>
    cases l with
    | nil => simp [risingBy]
    | cons y ys =>
      simp only [risingBy, Bool.and_eq_true, decide_eq_true_eq, ih]
      constructor
      · rintro ⟨hxy, hp⟩
        refine List.pairwise_cons.2 ⟨fun z hz => ?_, hp⟩
        rcases List.mem_cons.1 hz with rfl | hz
        · exact hxy
        · exact hxy.trans ((List.pairwise_cons.1 hp).1 z hz)
      · intro h
        exact ⟨(List.pairwise_cons.1 h).1 y (by simp), (List.pairwise_cons.1 h).2⟩

/-- What `putBy` can put into a list: the new entry, or an entry that stood there. -/
theorem mem_of_mem_putBy {x z : α} {l : List α} (h : z ∈ putBy key x l) : z = x ∨ z ∈ l := by
  induction l with
  | nil => simpa [putBy] using h
  | cons y ys ih =>
    simp only [putBy] at h
    split at h
    · simpa using h
    · split at h
      · rcases List.mem_cons.1 h with h | h
        · exact .inl h
        · exact .inr (List.mem_cons_of_mem _ h)
      · rcases List.mem_cons.1 h with h | h
        · exact .inr (h ▸ List.mem_cons_self)
        · exact (ih h).imp_right (List.mem_cons_of_mem _)

/-- Where no entry has the key, `putBy` only adds. -/
theorem mem_putBy_of_fresh {x z : α} {l : List α} (h : ∀ y ∈ l, key y ≠ key x) : z ∈ putBy key x l ↔ z = x ∨ z ∈ l := by
  induction l with
  | nil => simp [putBy]
  | cons y ys ih =>
    have hy : key x ≠ key y := fun e => h y (by simp) e.symm
    have := ih fun y' hy' => h y' (by simp [hy'])
    simp only [putBy, if_neg hy]
    split
    · simp
    · simp only [List.mem_cons, this]; tauto

theorem pairwise_putBy (x : α) {l : List α} (h : l.Pairwise (fun a b => key a < key b)) :
    (putBy key x l).Pairwise (fun a b => key a < key b) := by
  induction l with
  | nil => simp [putBy]
  | cons y ys ih =>
    obtain ⟨h1, h2⟩ := List.pairwise_cons.1 h
    simp only [putBy]
    split
    · rename_i hlt
      refine List.pairwise_cons.2 ⟨fun z hz => ?_, h⟩
      rcases List.mem_cons.1 hz with rfl | hz
      · exact hlt
      · exact hlt.trans (h1 z hz)
    · split
      · rename_i _ he
        exact List.pairwise_cons.2 ⟨fun z hz => he ▸ h1 z hz, h2⟩
      · rename_i hlt he
        refine List.pairwise_cons.2 ⟨fun z hz => ?_, ih h2⟩
        rcases mem_of_mem_putBy hz with rfl | hz
        · omega
        · exact h1 z hz

/-- `putBy` keeps the order. -/
theorem risingBy_putBy (x : α) {l : List α} (h : risingBy key l = true) : risingBy key (putBy key x l) = true :=
  (risingBy_iff_pairwise _).2 (pairwise_putBy x ((risingBy_iff_pairwise _).1 h))

/-- Removing entries keeps the order. -/
theorem risingBy_filter (p : α → Bool) {l : List α} (h : risingBy key l = true) : risingBy key (l.filter p) = true :=
  (risingBy_iff_pairwise _).2 (((risingBy_iff_pairwise _).1 h).filter p)

/-- In a rising list `putBy` replaces the entry with the key, or adds one. -/
theorem length_putBy_le (x : α) (l : List α) : (putBy key x l).length ≤ l.length + 1 := by
  induction l with
  | nil => simp [putBy]
  | cons y ys ih => simp only [putBy]; split <;> (try split) <;> simp; omega

theorem length_putBy_of_mem {x : α} {l : List α} (hl : risingBy key l = true) (h : ∃ y ∈ l, key y = key x) :
    (putBy key x l).length = l.length := by
  rw [risingBy_iff_pairwise] at hl
  induction l with
  | nil => simp at h
  | cons y ys ih =>
    obtain ⟨h1, h2⟩ := List.pairwise_cons.1 hl
    obtain ⟨z, hz, he⟩ := h
    simp only [putBy]
    rcases List.mem_cons.1 hz with rfl | hz
    · simp [he]
    · have := h1 z hz
      rw [if_neg (by omega), if_neg (by omega)]
      simp [ih h2 ⟨z, hz, he⟩]

/-- Lookup after `putBy`, by a test that only entries with the key meet. -/
theorem find?_putBy_self {x : α} {p : α → Bool} {l : List α} (hl : risingBy key l = true) (hx : p x = true)
    (hp : ∀ y, p y = true → key y = key x) : (putBy key x l).find? p = some x := by
  rw [risingBy_iff_pairwise] at hl
  induction l with
  | nil => simp [putBy, hx]
  | cons y ys ih =>
    obtain ⟨h1, h2⟩ := List.pairwise_cons.1 hl
    simp only [putBy]
    split
    · simp [hx]
    · split
      · simp [hx]
      · rename_i _ hne
        have : p y = false := by
          cases hy : p y with
          | false => rfl
          | true => exact absurd (hp y hy).symm hne
        simp [this, ih h2]

/-- Lookup after `putBy`, by a test that no entry with the key meets. -/
theorem find?_putBy_other {x : α} {p : α → Bool} {l : List α} (hp : ∀ y, key y = key x → p y = false) :
    (putBy key x l).find? p = l.find? p := by
  induction l with
  | nil => simp [putBy, hp x rfl]
  | cons y ys ih =>
    simp only [putBy]
    split
    · simp [List.find?_cons, hp x rfl]
    · split
      · rename_i _ he
        simp [hp x rfl, hp y he.symm]
      · simp [List.find?_cons, ih]

end Sys2Proof.Machine
end

