-- ==== Sys2Proof/Laws/Memory.lean ====
section
/-! SUPPORT. `CTX`: lookup after each operation, and that every operation keeps the canonical form `Memory.wf`. -/

namespace Sys2Proof.Machine

/-! ### Lookup -/

theorem Memory.find_id {m : Memory} {id : Ident} {c : Context} (h : Memory.find m id = some c) : c.id = id := by
  simpa using List.find?_some h

theorem Memory.find_mem {m : Memory} {id : Ident} {c : Context} (h : Memory.find m id = some c) : c ∈ m :=
  List.mem_of_find?_eq_some h

theorem Memory.find_erase_self (m : Memory) (id : Ident) : Memory.find (Memory.erase m id) id = none := by
  simp [Memory.find, Memory.erase]

theorem Memory.find_erase_other (m : Memory) {id id' : Ident} (h : id' ≠ id) :
    Memory.find (Memory.erase m id) id' = Memory.find m id' := by
  induction m with
  | nil => rfl
  | cons c m ih =>
    simp only [Memory.find, Memory.erase] at ih ⊢
    by_cases hc : c.id = id
    · have : ¬ c.id = id' := fun e => h (e ▸ hc)
      simp [hc, ih, Ne.symm h]
    · simp [hc, List.find?_cons, ih]

/-- Erasing an identifier with no context changes nothing. -/
theorem Memory.erase_of_find_none {m : Memory} {id : Ident} (h : Memory.find m id = none) : Memory.erase m id = m := by
  simp only [Memory.find, List.find?_eq_none] at h
  simp only [Memory.erase, List.filter_eq_self]
  intro c hc
  simpa using h c hc

theorem Memory.find_put_self {m : Memory} {c : Context} (h : risingBy (fun c : Context => c.id.toNat) m = true) :
    Memory.find (Memory.put m c) c.id = some c :=
  find?_putBy_self h (by simp) fun y hy => by simp at hy; simp [hy]

theorem Memory.find_put_other (m : Memory) {c : Context} {id : Ident} (h : id ≠ c.id) :
    Memory.find (Memory.put m c) id = Memory.find m id :=
  find?_putBy_other fun y hy => by
    have : y.id = c.id := BitVec.eq_of_toNat_eq hy
    simp [this, Ne.symm h]

theorem Memory.erase_length_le (m : Memory) (id : Ident) : (Memory.erase m id).length ≤ m.length := List.length_filter_le _ _

/-- The other-size discard touches one identifier only. -/
theorem Memory.find_dropOtherSize_other (m : Memory) {id id' : Ident} (size : Len) (h : id' ≠ id) :
    Memory.find (Memory.dropOtherSize m id size) id' = Memory.find m id' := by
  unfold Memory.dropOtherSize
  split
  · split
    · exact Memory.find_erase_other m h
    · rfl
  · rfl

/-- After the discard a live context has the asked size (R109). -/
theorem Memory.find_dropOtherSize_self {m : Memory} {id : Ident} {size : Len} {c : Context}
    (h : Memory.find (Memory.dropOtherSize m id size) id = some c) : c.size = size ∧ Memory.find m id = some c := by
  unfold Memory.dropOtherSize at h
  split at h
  · rename_i d hd
    split at h
    · rw [Memory.find_erase_self] at h; cases h
    · rename_i hs
      have e : d = c := by rw [hd] at h; injection h
      subst e
      exact ⟨Decidable.not_not.1 hs, hd⟩
  · rename_i hn
    rw [hn] at h; cases h

/-! ### The canonical form -/

theorem Memory.wf_iff (m : Memory) :
    Memory.wf m = true ↔ risingBy (fun c : Context => c.id.toNat) m = true ∧ ∀ c ∈ m, c.wf = true := by
  simp [Memory.wf]

theorem Memory.erase_wf {m : Memory} (id : Ident) (h : Memory.wf m = true) : Memory.wf (Memory.erase m id) = true := by
  rw [Memory.wf_iff] at h ⊢
  exact ⟨risingBy_filter _ h.1, fun c hc => h.2 c (List.mem_of_mem_filter hc)⟩

theorem Memory.put_wf {m : Memory} {c : Context} (h : Memory.wf m = true) (hc : c.wf = true) :
    Memory.wf (Memory.put m c) = true := by
  rw [Memory.wf_iff] at h ⊢
  refine ⟨risingBy_putBy c h.1, fun d hd => ?_⟩
  rcases mem_of_mem_putBy hd with rfl | hd
  · exact hc
  · exact h.2 d hd

theorem Memory.dropOtherSize_wf {m : Memory} (id : Ident) (size : Len) (h : Memory.wf m = true) :
    Memory.wf (Memory.dropOtherSize m id size) = true := by
  unfold Memory.dropOtherSize
  split
  · split
    · exact Memory.erase_wf id h
    · exact h
  · exact h

/-- The empty map is in canonical form: reset's. -/
theorem Memory.wf_nil : Memory.wf [] = true := rfl

theorem State.reset_memory_wf : Memory.wf State.reset.ctx = true := rfl

/-! ### The value buffer and the bitmap -/

@[simp] theorem bufWrite_length (v : List Byte) (off : Nat) (bs : List Byte) : (bufWrite v off bs).length = v.length := by
  simp [bufWrite]

/-- What a byte of the buffer reads as after a write. -/
theorem bufWrite_getD (v : List Byte) (off : Nat) (bs : List Byte) {k : Nat} (hk : k < v.length) :
    (bufWrite v off bs).getD k 0 = if off ≤ k ∧ k < off + bs.length then bs.getD (k - off) 0 else v.getD k 0 := by
  simp [bufWrite, List.getD_eq_getElem?_getD, hk]

@[simp] theorem setBit_length (bits : List Bool) (i : Nat) : (setBit bits i).length = bits.length := by simp [setBit]

theorem setBit_getD_self {bits : List Bool} {i : Nat} (h : i < bits.length) : (setBit bits i).getD i false = true := by
  simp [setBit, List.getD_eq_getElem?_getD, h]

theorem setBit_getD_other (bits : List Bool) {i j : Nat} (h : i ≠ j) : (setBit bits i).getD j false = bits.getD j false := by
  simp [setBit, List.getD_eq_getElem?_getD, List.getElem?_set_ne h]

/-- A write keeps the identifier, the size and the lengths (R112). -/
@[simp] theorem Context.accept_id (c : Context) (f : Frame) (i : Nat) : (c.accept f i).id = c.id := rfl

@[simp] theorem Context.accept_size (c : Context) (f : Frame) (i : Nat) : (c.accept f i).size = c.size := rfl

@[simp] theorem Context.accept_received (c : Context) (f : Frame) (i : Nat) : (c.accept f i).received = setBit c.received i := rfl

@[simp] theorem Context.accept_value_length (c : Context) (f : Frame) (i : Nat) :
    (c.accept f i).value.length = c.value.length := by simp [Context.accept]

/-- Accepting a valid segment that does not complete keeps a context well formed. -/
theorem Context.accept_wf {c : Context} {f : Frame} {i : Nat} (hs : singleMax < c.size.toNat) (hm : c.size.toNat ≤ maxRecord)
    (hr : c.received.length = nseg c.size.toNat) (hv : c.value.length = c.size.toNat) (hi : i < nseg c.size.toNat)
    (hn : allSet (c.accept f i).received = false) : (c.accept f i).wf = true := by
  have hmem : true ∈ setBit c.received i := List.mem_iff_getElem.2
    ⟨i, by simpa [setBit, hr] using hi, by simp [setBit]⟩
  have hany : (setBit c.received i).any (fun b => b) = true := List.any_eq_true.2 ⟨true, hmem, rfl⟩
  rw [Context.accept_received] at hn
  simp [Context.wf, hs, hm, hr, hv, hany, hn]

end Sys2Proof.Machine
end

