-- ==== Sys2Proof/Laws/PerInstr.lean ====
section
/-! SUPPORT. Facts about commands as syntax, one lemma per constructor. -/

namespace Sys2Proof.Laws

/-- The opcode field of a header word is its row's opcode (R66). -/
theorem opcField_headerWord (o : Opcode) (h : Header) : opcField (headerWord o h) = o.code := by
  apply BitVec.eq_of_getLsbD_eq
  intro k hk
  simp only [opcField, headerWord, BitVec.getLsbD_extractLsb', BitVec.getLsbD_append, hk, decide_true, Bool.true_and]
  have h1 : ¬ 24 + k < 11 := by omega
  have h2 : ¬ 24 + k - 11 < 4 := by omega
  have h3 : ¬ 24 + k - 11 - 4 < 1 := by omega
  have h4 : ¬ 24 + k - 11 - 4 - 1 < 8 := by omega
  simp only [h1, h2, h3, h4, if_false]
  congr 1
  omega

/-- Each row's opcode names that row. -/
theorem ofCode_code (o : Opcode) : Opcode.ofCode o.code = some o := by cases o <;> decide

/-- The first word of a command names its row. -/
def FirstWordNamesRow.Statement (i : Instr) : Prop :=
  ∃ w ws, encode i = w :: ws ∧ Opcode.ofCode (opcField w) = some i.opcode

theorem FirstWordNamesRow.of_encode (i : Instr) : FirstWordNamesRow.Statement i :=
  ⟨_, _, rfl, by rw [opcField_headerWord, ofCode_code]⟩

theorem FirstWordNamesRow.compose (h : Header) (base : Word) : FirstWordNamesRow.Statement (.compose h base) :=
  FirstWordNamesRow.of_encode _

theorem FirstWordNamesRow.sendFrame (h : Header) (id data0 data1 : Word) :
    FirstWordNamesRow.Statement (.sendFrame h id data0 data1) := FirstWordNamesRow.of_encode _

theorem FirstWordNamesRow.sendRecord (h : Header) (base : Word) (data : List Word) :
    FirstWordNamesRow.Statement (.sendRecord h base data) := FirstWordNamesRow.of_encode _

theorem FirstWordNamesRow.sendQuery (h : Header) (base : Word) : FirstWordNamesRow.Statement (.sendQuery h base) :=
  FirstWordNamesRow.of_encode _

theorem FirstWordNamesRow.register (h : Header) (key tag : Word) : FirstWordNamesRow.Statement (.register h key tag) :=
  FirstWordNamesRow.of_encode _

theorem FirstWordNamesRow.registerMasked (h : Header) (base mask tag : Word) :
    FirstWordNamesRow.Statement (.registerMasked h base mask tag) := FirstWordNamesRow.of_encode _

theorem FirstWordNamesRow.remove (h : Header) (key : Word) : FirstWordNamesRow.Statement (.remove h key) :=
  FirstWordNamesRow.of_encode _

theorem FirstWordNamesRow.removeMasked (h : Header) (base mask : Word) :
    FirstWordNamesRow.Statement (.removeMasked h base mask) := FirstWordNamesRow.of_encode _

theorem FirstWordNamesRow.openChannel (h : Header) : FirstWordNamesRow.Statement (.openChannel h) :=
  FirstWordNamesRow.of_encode _

theorem FirstWordNamesRow.closeChannel (h : Header) : FirstWordNamesRow.Statement (.closeChannel h) :=
  FirstWordNamesRow.of_encode _

end Sys2Proof.Laws
end

