-- ==== Sys2Proof/Laws/State.lean ====
section
/-! SUPPORT. One lemma per field per named update of the state: what each operation of Machine/Ops.lean writes, and that it
writes nothing else. -/

namespace Sys2Proof.Machine

/-! ### `withExact` -/

@[simp] theorem State.withExact_params (s : State) (x : List ExactEntry) : (s.withExact x).params = s.params := rfl
@[simp] theorem State.withExact_exact (s : State) (x : List ExactEntry) : (s.withExact x).exact = x := rfl
@[simp] theorem State.withExact_masked (s : State) (x : List ExactEntry) : (s.withExact x).masked = s.masked := rfl
@[simp] theorem State.withExact_ctx (s : State) (x : List ExactEntry) : (s.withExact x).ctx = s.ctx := rfl
@[simp] theorem State.withExact_cmd (s : State) (x : List ExactEntry) : (s.withExact x).cmd = s.cmd := rfl
@[simp] theorem State.withExact_resp (s : State) (x : List ExactEntry) : (s.withExact x).resp = s.resp := rfl
@[simp] theorem State.withExact_outq (s : State) (x : List ExactEntry) : (s.withExact x).outq = s.outq := rfl
@[simp] theorem State.withExact_cmdPort (s : State) (x : List ExactEntry) : (s.withExact x).cmdPort = s.cmdPort := rfl
@[simp] theorem State.withExact_answer (s : State) (x : List ExactEntry) : (s.withExact x).answer = s.answer := rfl
@[simp] theorem State.withExact_rxPort (s : State) (x : List ExactEntry) : (s.withExact x).rxPort = s.rxPort := rfl
@[simp] theorem State.withExact_script (s : State) (x : List ExactEntry) : (s.withExact x).script = s.script := rfl
@[simp] theorem State.withExact_txLog (s : State) (x : List ExactEntry) : (s.withExact x).txLog = s.txLog := rfl
@[simp] theorem State.withExact_ctlLog (s : State) (x : List ExactEntry) : (s.withExact x).ctlLog = s.ctlLog := rfl
@[simp] theorem State.withExact_respLog (s : State) (x : List ExactEntry) : (s.withExact x).respLog = s.respLog := rfl
@[simp] theorem State.withExact_eventLog (s : State) (x : List ExactEntry) : (s.withExact x).eventLog = s.eventLog := rfl

/-! ### `withMasked` -/

@[simp] theorem State.withMasked_params (s : State) (x : List MaskedEntry) : (s.withMasked x).params = s.params := rfl
@[simp] theorem State.withMasked_exact (s : State) (x : List MaskedEntry) : (s.withMasked x).exact = s.exact := rfl
@[simp] theorem State.withMasked_masked (s : State) (x : List MaskedEntry) : (s.withMasked x).masked = x := rfl
@[simp] theorem State.withMasked_ctx (s : State) (x : List MaskedEntry) : (s.withMasked x).ctx = s.ctx := rfl
@[simp] theorem State.withMasked_cmd (s : State) (x : List MaskedEntry) : (s.withMasked x).cmd = s.cmd := rfl
@[simp] theorem State.withMasked_resp (s : State) (x : List MaskedEntry) : (s.withMasked x).resp = s.resp := rfl
@[simp] theorem State.withMasked_outq (s : State) (x : List MaskedEntry) : (s.withMasked x).outq = s.outq := rfl
@[simp] theorem State.withMasked_cmdPort (s : State) (x : List MaskedEntry) : (s.withMasked x).cmdPort = s.cmdPort := rfl
@[simp] theorem State.withMasked_answer (s : State) (x : List MaskedEntry) : (s.withMasked x).answer = s.answer := rfl
@[simp] theorem State.withMasked_rxPort (s : State) (x : List MaskedEntry) : (s.withMasked x).rxPort = s.rxPort := rfl
@[simp] theorem State.withMasked_script (s : State) (x : List MaskedEntry) : (s.withMasked x).script = s.script := rfl
@[simp] theorem State.withMasked_txLog (s : State) (x : List MaskedEntry) : (s.withMasked x).txLog = s.txLog := rfl
@[simp] theorem State.withMasked_ctlLog (s : State) (x : List MaskedEntry) : (s.withMasked x).ctlLog = s.ctlLog := rfl
@[simp] theorem State.withMasked_respLog (s : State) (x : List MaskedEntry) : (s.withMasked x).respLog = s.respLog := rfl
@[simp] theorem State.withMasked_eventLog (s : State) (x : List MaskedEntry) : (s.withMasked x).eventLog = s.eventLog := rfl

/-! ### `withCtx` -/

@[simp] theorem State.withCtx_params (s : State) (x : Memory) : (s.withCtx x).params = s.params := rfl
@[simp] theorem State.withCtx_exact (s : State) (x : Memory) : (s.withCtx x).exact = s.exact := rfl
@[simp] theorem State.withCtx_masked (s : State) (x : Memory) : (s.withCtx x).masked = s.masked := rfl
@[simp] theorem State.withCtx_ctx (s : State) (x : Memory) : (s.withCtx x).ctx = x := rfl
@[simp] theorem State.withCtx_cmd (s : State) (x : Memory) : (s.withCtx x).cmd = s.cmd := rfl
@[simp] theorem State.withCtx_resp (s : State) (x : Memory) : (s.withCtx x).resp = s.resp := rfl
@[simp] theorem State.withCtx_outq (s : State) (x : Memory) : (s.withCtx x).outq = s.outq := rfl
@[simp] theorem State.withCtx_cmdPort (s : State) (x : Memory) : (s.withCtx x).cmdPort = s.cmdPort := rfl
@[simp] theorem State.withCtx_answer (s : State) (x : Memory) : (s.withCtx x).answer = s.answer := rfl
@[simp] theorem State.withCtx_rxPort (s : State) (x : Memory) : (s.withCtx x).rxPort = s.rxPort := rfl
@[simp] theorem State.withCtx_script (s : State) (x : Memory) : (s.withCtx x).script = s.script := rfl
@[simp] theorem State.withCtx_txLog (s : State) (x : Memory) : (s.withCtx x).txLog = s.txLog := rfl
@[simp] theorem State.withCtx_ctlLog (s : State) (x : Memory) : (s.withCtx x).ctlLog = s.ctlLog := rfl
@[simp] theorem State.withCtx_respLog (s : State) (x : Memory) : (s.withCtx x).respLog = s.respLog := rfl
@[simp] theorem State.withCtx_eventLog (s : State) (x : Memory) : (s.withCtx x).eventLog = s.eventLog := rfl

/-! ### `withCmd` -/

@[simp] theorem State.withCmd_params (s : State) (x : Cmd) : (s.withCmd x).params = s.params := rfl
@[simp] theorem State.withCmd_exact (s : State) (x : Cmd) : (s.withCmd x).exact = s.exact := rfl
@[simp] theorem State.withCmd_masked (s : State) (x : Cmd) : (s.withCmd x).masked = s.masked := rfl
@[simp] theorem State.withCmd_ctx (s : State) (x : Cmd) : (s.withCmd x).ctx = s.ctx := rfl
@[simp] theorem State.withCmd_cmd (s : State) (x : Cmd) : (s.withCmd x).cmd = x := rfl
@[simp] theorem State.withCmd_resp (s : State) (x : Cmd) : (s.withCmd x).resp = s.resp := rfl
@[simp] theorem State.withCmd_outq (s : State) (x : Cmd) : (s.withCmd x).outq = s.outq := rfl
@[simp] theorem State.withCmd_cmdPort (s : State) (x : Cmd) : (s.withCmd x).cmdPort = s.cmdPort := rfl
@[simp] theorem State.withCmd_answer (s : State) (x : Cmd) : (s.withCmd x).answer = s.answer := rfl
@[simp] theorem State.withCmd_rxPort (s : State) (x : Cmd) : (s.withCmd x).rxPort = s.rxPort := rfl
@[simp] theorem State.withCmd_script (s : State) (x : Cmd) : (s.withCmd x).script = s.script := rfl
@[simp] theorem State.withCmd_txLog (s : State) (x : Cmd) : (s.withCmd x).txLog = s.txLog := rfl
@[simp] theorem State.withCmd_ctlLog (s : State) (x : Cmd) : (s.withCmd x).ctlLog = s.ctlLog := rfl
@[simp] theorem State.withCmd_respLog (s : State) (x : Cmd) : (s.withCmd x).respLog = s.respLog := rfl
@[simp] theorem State.withCmd_eventLog (s : State) (x : Cmd) : (s.withCmd x).eventLog = s.eventLog := rfl

/-! ### `withResp` -/

@[simp] theorem State.withResp_params (s : State) (x : Option Response) : (s.withResp x).params = s.params := rfl
@[simp] theorem State.withResp_exact (s : State) (x : Option Response) : (s.withResp x).exact = s.exact := rfl
@[simp] theorem State.withResp_masked (s : State) (x : Option Response) : (s.withResp x).masked = s.masked := rfl
@[simp] theorem State.withResp_ctx (s : State) (x : Option Response) : (s.withResp x).ctx = s.ctx := rfl
@[simp] theorem State.withResp_cmd (s : State) (x : Option Response) : (s.withResp x).cmd = s.cmd := rfl
@[simp] theorem State.withResp_resp (s : State) (x : Option Response) : (s.withResp x).resp = x := rfl
@[simp] theorem State.withResp_outq (s : State) (x : Option Response) : (s.withResp x).outq = s.outq := rfl
@[simp] theorem State.withResp_cmdPort (s : State) (x : Option Response) : (s.withResp x).cmdPort = s.cmdPort := rfl
@[simp] theorem State.withResp_answer (s : State) (x : Option Response) : (s.withResp x).answer = s.answer := rfl
@[simp] theorem State.withResp_rxPort (s : State) (x : Option Response) : (s.withResp x).rxPort = s.rxPort := rfl
@[simp] theorem State.withResp_script (s : State) (x : Option Response) : (s.withResp x).script = s.script := rfl
@[simp] theorem State.withResp_txLog (s : State) (x : Option Response) : (s.withResp x).txLog = s.txLog := rfl
@[simp] theorem State.withResp_ctlLog (s : State) (x : Option Response) : (s.withResp x).ctlLog = s.ctlLog := rfl
@[simp] theorem State.withResp_respLog (s : State) (x : Option Response) : (s.withResp x).respLog = s.respLog := rfl
@[simp] theorem State.withResp_eventLog (s : State) (x : Option Response) : (s.withResp x).eventLog = s.eventLog := rfl

/-! ### `withOutq` -/

@[simp] theorem State.withOutq_params (s : State) (x : List Event) : (s.withOutq x).params = s.params := rfl
@[simp] theorem State.withOutq_exact (s : State) (x : List Event) : (s.withOutq x).exact = s.exact := rfl
@[simp] theorem State.withOutq_masked (s : State) (x : List Event) : (s.withOutq x).masked = s.masked := rfl
@[simp] theorem State.withOutq_ctx (s : State) (x : List Event) : (s.withOutq x).ctx = s.ctx := rfl
@[simp] theorem State.withOutq_cmd (s : State) (x : List Event) : (s.withOutq x).cmd = s.cmd := rfl
@[simp] theorem State.withOutq_resp (s : State) (x : List Event) : (s.withOutq x).resp = s.resp := rfl
@[simp] theorem State.withOutq_outq (s : State) (x : List Event) : (s.withOutq x).outq = x := rfl
@[simp] theorem State.withOutq_cmdPort (s : State) (x : List Event) : (s.withOutq x).cmdPort = s.cmdPort := rfl
@[simp] theorem State.withOutq_answer (s : State) (x : List Event) : (s.withOutq x).answer = s.answer := rfl
@[simp] theorem State.withOutq_rxPort (s : State) (x : List Event) : (s.withOutq x).rxPort = s.rxPort := rfl
@[simp] theorem State.withOutq_script (s : State) (x : List Event) : (s.withOutq x).script = s.script := rfl
@[simp] theorem State.withOutq_txLog (s : State) (x : List Event) : (s.withOutq x).txLog = s.txLog := rfl
@[simp] theorem State.withOutq_ctlLog (s : State) (x : List Event) : (s.withOutq x).ctlLog = s.ctlLog := rfl
@[simp] theorem State.withOutq_respLog (s : State) (x : List Event) : (s.withOutq x).respLog = s.respLog := rfl
@[simp] theorem State.withOutq_eventLog (s : State) (x : List Event) : (s.withOutq x).eventLog = s.eventLog := rfl

/-! ### `withCmdPort` -/

@[simp] theorem State.withCmdPort_params (s : State) (x : List Word) : (s.withCmdPort x).params = s.params := rfl
@[simp] theorem State.withCmdPort_exact (s : State) (x : List Word) : (s.withCmdPort x).exact = s.exact := rfl
@[simp] theorem State.withCmdPort_masked (s : State) (x : List Word) : (s.withCmdPort x).masked = s.masked := rfl
@[simp] theorem State.withCmdPort_ctx (s : State) (x : List Word) : (s.withCmdPort x).ctx = s.ctx := rfl
@[simp] theorem State.withCmdPort_cmd (s : State) (x : List Word) : (s.withCmdPort x).cmd = s.cmd := rfl
@[simp] theorem State.withCmdPort_resp (s : State) (x : List Word) : (s.withCmdPort x).resp = s.resp := rfl
@[simp] theorem State.withCmdPort_outq (s : State) (x : List Word) : (s.withCmdPort x).outq = s.outq := rfl
@[simp] theorem State.withCmdPort_cmdPort (s : State) (x : List Word) : (s.withCmdPort x).cmdPort = x := rfl
@[simp] theorem State.withCmdPort_answer (s : State) (x : List Word) : (s.withCmdPort x).answer = s.answer := rfl
@[simp] theorem State.withCmdPort_rxPort (s : State) (x : List Word) : (s.withCmdPort x).rxPort = s.rxPort := rfl
@[simp] theorem State.withCmdPort_script (s : State) (x : List Word) : (s.withCmdPort x).script = s.script := rfl
@[simp] theorem State.withCmdPort_txLog (s : State) (x : List Word) : (s.withCmdPort x).txLog = s.txLog := rfl
@[simp] theorem State.withCmdPort_ctlLog (s : State) (x : List Word) : (s.withCmdPort x).ctlLog = s.ctlLog := rfl
@[simp] theorem State.withCmdPort_respLog (s : State) (x : List Word) : (s.withCmdPort x).respLog = s.respLog := rfl
@[simp] theorem State.withCmdPort_eventLog (s : State) (x : List Word) : (s.withCmdPort x).eventLog = s.eventLog := rfl

/-! ### `withAnswer` -/

@[simp] theorem State.withAnswer_params (s : State) (x : Option TRes) : (s.withAnswer x).params = s.params := rfl
@[simp] theorem State.withAnswer_exact (s : State) (x : Option TRes) : (s.withAnswer x).exact = s.exact := rfl
@[simp] theorem State.withAnswer_masked (s : State) (x : Option TRes) : (s.withAnswer x).masked = s.masked := rfl
@[simp] theorem State.withAnswer_ctx (s : State) (x : Option TRes) : (s.withAnswer x).ctx = s.ctx := rfl
@[simp] theorem State.withAnswer_cmd (s : State) (x : Option TRes) : (s.withAnswer x).cmd = s.cmd := rfl
@[simp] theorem State.withAnswer_resp (s : State) (x : Option TRes) : (s.withAnswer x).resp = s.resp := rfl
@[simp] theorem State.withAnswer_outq (s : State) (x : Option TRes) : (s.withAnswer x).outq = s.outq := rfl
@[simp] theorem State.withAnswer_cmdPort (s : State) (x : Option TRes) : (s.withAnswer x).cmdPort = s.cmdPort := rfl
@[simp] theorem State.withAnswer_answer (s : State) (x : Option TRes) : (s.withAnswer x).answer = x := rfl
@[simp] theorem State.withAnswer_rxPort (s : State) (x : Option TRes) : (s.withAnswer x).rxPort = s.rxPort := rfl
@[simp] theorem State.withAnswer_script (s : State) (x : Option TRes) : (s.withAnswer x).script = s.script := rfl
@[simp] theorem State.withAnswer_txLog (s : State) (x : Option TRes) : (s.withAnswer x).txLog = s.txLog := rfl
@[simp] theorem State.withAnswer_ctlLog (s : State) (x : Option TRes) : (s.withAnswer x).ctlLog = s.ctlLog := rfl
@[simp] theorem State.withAnswer_respLog (s : State) (x : Option TRes) : (s.withAnswer x).respLog = s.respLog := rfl
@[simp] theorem State.withAnswer_eventLog (s : State) (x : Option TRes) : (s.withAnswer x).eventLog = s.eventLog := rfl

/-! ### `withRxPort` -/

@[simp] theorem State.withRxPort_params (s : State) (x : Option Frame) : (s.withRxPort x).params = s.params := rfl
@[simp] theorem State.withRxPort_exact (s : State) (x : Option Frame) : (s.withRxPort x).exact = s.exact := rfl
@[simp] theorem State.withRxPort_masked (s : State) (x : Option Frame) : (s.withRxPort x).masked = s.masked := rfl
@[simp] theorem State.withRxPort_ctx (s : State) (x : Option Frame) : (s.withRxPort x).ctx = s.ctx := rfl
@[simp] theorem State.withRxPort_cmd (s : State) (x : Option Frame) : (s.withRxPort x).cmd = s.cmd := rfl
@[simp] theorem State.withRxPort_resp (s : State) (x : Option Frame) : (s.withRxPort x).resp = s.resp := rfl
@[simp] theorem State.withRxPort_outq (s : State) (x : Option Frame) : (s.withRxPort x).outq = s.outq := rfl
@[simp] theorem State.withRxPort_cmdPort (s : State) (x : Option Frame) : (s.withRxPort x).cmdPort = s.cmdPort := rfl
@[simp] theorem State.withRxPort_answer (s : State) (x : Option Frame) : (s.withRxPort x).answer = s.answer := rfl
@[simp] theorem State.withRxPort_rxPort (s : State) (x : Option Frame) : (s.withRxPort x).rxPort = x := rfl
@[simp] theorem State.withRxPort_script (s : State) (x : Option Frame) : (s.withRxPort x).script = s.script := rfl
@[simp] theorem State.withRxPort_txLog (s : State) (x : Option Frame) : (s.withRxPort x).txLog = s.txLog := rfl
@[simp] theorem State.withRxPort_ctlLog (s : State) (x : Option Frame) : (s.withRxPort x).ctlLog = s.ctlLog := rfl
@[simp] theorem State.withRxPort_respLog (s : State) (x : Option Frame) : (s.withRxPort x).respLog = s.respLog := rfl
@[simp] theorem State.withRxPort_eventLog (s : State) (x : Option Frame) : (s.withRxPort x).eventLog = s.eventLog := rfl

/-! ### `withScript` -/

@[simp] theorem State.withScript_params (s : State) (x : List Move) : (s.withScript x).params = s.params := rfl
@[simp] theorem State.withScript_exact (s : State) (x : List Move) : (s.withScript x).exact = s.exact := rfl
@[simp] theorem State.withScript_masked (s : State) (x : List Move) : (s.withScript x).masked = s.masked := rfl
@[simp] theorem State.withScript_ctx (s : State) (x : List Move) : (s.withScript x).ctx = s.ctx := rfl
@[simp] theorem State.withScript_cmd (s : State) (x : List Move) : (s.withScript x).cmd = s.cmd := rfl
@[simp] theorem State.withScript_resp (s : State) (x : List Move) : (s.withScript x).resp = s.resp := rfl
@[simp] theorem State.withScript_outq (s : State) (x : List Move) : (s.withScript x).outq = s.outq := rfl
@[simp] theorem State.withScript_cmdPort (s : State) (x : List Move) : (s.withScript x).cmdPort = s.cmdPort := rfl
@[simp] theorem State.withScript_answer (s : State) (x : List Move) : (s.withScript x).answer = s.answer := rfl
@[simp] theorem State.withScript_rxPort (s : State) (x : List Move) : (s.withScript x).rxPort = s.rxPort := rfl
@[simp] theorem State.withScript_script (s : State) (x : List Move) : (s.withScript x).script = x := rfl
@[simp] theorem State.withScript_txLog (s : State) (x : List Move) : (s.withScript x).txLog = s.txLog := rfl
@[simp] theorem State.withScript_ctlLog (s : State) (x : List Move) : (s.withScript x).ctlLog = s.ctlLog := rfl
@[simp] theorem State.withScript_respLog (s : State) (x : List Move) : (s.withScript x).respLog = s.respLog := rfl
@[simp] theorem State.withScript_eventLog (s : State) (x : List Move) : (s.withScript x).eventLog = s.eventLog := rfl

/-! ### `withTxLog` -/

@[simp] theorem State.withTxLog_params (s : State) (x : List Frame) : (s.withTxLog x).params = s.params := rfl
@[simp] theorem State.withTxLog_exact (s : State) (x : List Frame) : (s.withTxLog x).exact = s.exact := rfl
@[simp] theorem State.withTxLog_masked (s : State) (x : List Frame) : (s.withTxLog x).masked = s.masked := rfl
@[simp] theorem State.withTxLog_ctx (s : State) (x : List Frame) : (s.withTxLog x).ctx = s.ctx := rfl
@[simp] theorem State.withTxLog_cmd (s : State) (x : List Frame) : (s.withTxLog x).cmd = s.cmd := rfl
@[simp] theorem State.withTxLog_resp (s : State) (x : List Frame) : (s.withTxLog x).resp = s.resp := rfl
@[simp] theorem State.withTxLog_outq (s : State) (x : List Frame) : (s.withTxLog x).outq = s.outq := rfl
@[simp] theorem State.withTxLog_cmdPort (s : State) (x : List Frame) : (s.withTxLog x).cmdPort = s.cmdPort := rfl
@[simp] theorem State.withTxLog_answer (s : State) (x : List Frame) : (s.withTxLog x).answer = s.answer := rfl
@[simp] theorem State.withTxLog_rxPort (s : State) (x : List Frame) : (s.withTxLog x).rxPort = s.rxPort := rfl
@[simp] theorem State.withTxLog_script (s : State) (x : List Frame) : (s.withTxLog x).script = s.script := rfl
@[simp] theorem State.withTxLog_txLog (s : State) (x : List Frame) : (s.withTxLog x).txLog = x := rfl
@[simp] theorem State.withTxLog_ctlLog (s : State) (x : List Frame) : (s.withTxLog x).ctlLog = s.ctlLog := rfl
@[simp] theorem State.withTxLog_respLog (s : State) (x : List Frame) : (s.withTxLog x).respLog = s.respLog := rfl
@[simp] theorem State.withTxLog_eventLog (s : State) (x : List Frame) : (s.withTxLog x).eventLog = s.eventLog := rfl

/-! ### `withCtlLog` -/

@[simp] theorem State.withCtlLog_params (s : State) (x : List CtlOp) : (s.withCtlLog x).params = s.params := rfl
@[simp] theorem State.withCtlLog_exact (s : State) (x : List CtlOp) : (s.withCtlLog x).exact = s.exact := rfl
@[simp] theorem State.withCtlLog_masked (s : State) (x : List CtlOp) : (s.withCtlLog x).masked = s.masked := rfl
@[simp] theorem State.withCtlLog_ctx (s : State) (x : List CtlOp) : (s.withCtlLog x).ctx = s.ctx := rfl
@[simp] theorem State.withCtlLog_cmd (s : State) (x : List CtlOp) : (s.withCtlLog x).cmd = s.cmd := rfl
@[simp] theorem State.withCtlLog_resp (s : State) (x : List CtlOp) : (s.withCtlLog x).resp = s.resp := rfl
@[simp] theorem State.withCtlLog_outq (s : State) (x : List CtlOp) : (s.withCtlLog x).outq = s.outq := rfl
@[simp] theorem State.withCtlLog_cmdPort (s : State) (x : List CtlOp) : (s.withCtlLog x).cmdPort = s.cmdPort := rfl
@[simp] theorem State.withCtlLog_answer (s : State) (x : List CtlOp) : (s.withCtlLog x).answer = s.answer := rfl
@[simp] theorem State.withCtlLog_rxPort (s : State) (x : List CtlOp) : (s.withCtlLog x).rxPort = s.rxPort := rfl
@[simp] theorem State.withCtlLog_script (s : State) (x : List CtlOp) : (s.withCtlLog x).script = s.script := rfl
@[simp] theorem State.withCtlLog_txLog (s : State) (x : List CtlOp) : (s.withCtlLog x).txLog = s.txLog := rfl
@[simp] theorem State.withCtlLog_ctlLog (s : State) (x : List CtlOp) : (s.withCtlLog x).ctlLog = x := rfl
@[simp] theorem State.withCtlLog_respLog (s : State) (x : List CtlOp) : (s.withCtlLog x).respLog = s.respLog := rfl
@[simp] theorem State.withCtlLog_eventLog (s : State) (x : List CtlOp) : (s.withCtlLog x).eventLog = s.eventLog := rfl

/-! ### `withRespLog` -/

@[simp] theorem State.withRespLog_params (s : State) (x : List (List Word)) : (s.withRespLog x).params = s.params := rfl
@[simp] theorem State.withRespLog_exact (s : State) (x : List (List Word)) : (s.withRespLog x).exact = s.exact := rfl
@[simp] theorem State.withRespLog_masked (s : State) (x : List (List Word)) : (s.withRespLog x).masked = s.masked := rfl
@[simp] theorem State.withRespLog_ctx (s : State) (x : List (List Word)) : (s.withRespLog x).ctx = s.ctx := rfl
@[simp] theorem State.withRespLog_cmd (s : State) (x : List (List Word)) : (s.withRespLog x).cmd = s.cmd := rfl
@[simp] theorem State.withRespLog_resp (s : State) (x : List (List Word)) : (s.withRespLog x).resp = s.resp := rfl
@[simp] theorem State.withRespLog_outq (s : State) (x : List (List Word)) : (s.withRespLog x).outq = s.outq := rfl
@[simp] theorem State.withRespLog_cmdPort (s : State) (x : List (List Word)) : (s.withRespLog x).cmdPort = s.cmdPort := rfl
@[simp] theorem State.withRespLog_answer (s : State) (x : List (List Word)) : (s.withRespLog x).answer = s.answer := rfl
@[simp] theorem State.withRespLog_rxPort (s : State) (x : List (List Word)) : (s.withRespLog x).rxPort = s.rxPort := rfl
@[simp] theorem State.withRespLog_script (s : State) (x : List (List Word)) : (s.withRespLog x).script = s.script := rfl
@[simp] theorem State.withRespLog_txLog (s : State) (x : List (List Word)) : (s.withRespLog x).txLog = s.txLog := rfl
@[simp] theorem State.withRespLog_ctlLog (s : State) (x : List (List Word)) : (s.withRespLog x).ctlLog = s.ctlLog := rfl
@[simp] theorem State.withRespLog_respLog (s : State) (x : List (List Word)) : (s.withRespLog x).respLog = x := rfl
@[simp] theorem State.withRespLog_eventLog (s : State) (x : List (List Word)) : (s.withRespLog x).eventLog = s.eventLog := rfl

/-! ### `withEventLog` -/

@[simp] theorem State.withEventLog_params (s : State) (x : List (List Word)) : (s.withEventLog x).params = s.params := rfl
@[simp] theorem State.withEventLog_exact (s : State) (x : List (List Word)) : (s.withEventLog x).exact = s.exact := rfl
@[simp] theorem State.withEventLog_masked (s : State) (x : List (List Word)) : (s.withEventLog x).masked = s.masked := rfl
@[simp] theorem State.withEventLog_ctx (s : State) (x : List (List Word)) : (s.withEventLog x).ctx = s.ctx := rfl
@[simp] theorem State.withEventLog_cmd (s : State) (x : List (List Word)) : (s.withEventLog x).cmd = s.cmd := rfl
@[simp] theorem State.withEventLog_resp (s : State) (x : List (List Word)) : (s.withEventLog x).resp = s.resp := rfl
@[simp] theorem State.withEventLog_outq (s : State) (x : List (List Word)) : (s.withEventLog x).outq = s.outq := rfl
@[simp] theorem State.withEventLog_cmdPort (s : State) (x : List (List Word)) : (s.withEventLog x).cmdPort = s.cmdPort := rfl
@[simp] theorem State.withEventLog_answer (s : State) (x : List (List Word)) : (s.withEventLog x).answer = s.answer := rfl
@[simp] theorem State.withEventLog_rxPort (s : State) (x : List (List Word)) : (s.withEventLog x).rxPort = s.rxPort := rfl
@[simp] theorem State.withEventLog_script (s : State) (x : List (List Word)) : (s.withEventLog x).script = s.script := rfl
@[simp] theorem State.withEventLog_txLog (s : State) (x : List (List Word)) : (s.withEventLog x).txLog = s.txLog := rfl
@[simp] theorem State.withEventLog_ctlLog (s : State) (x : List (List Word)) : (s.withEventLog x).ctlLog = s.ctlLog := rfl
@[simp] theorem State.withEventLog_respLog (s : State) (x : List (List Word)) : (s.withEventLog x).respLog = s.respLog := rfl
@[simp] theorem State.withEventLog_eventLog (s : State) (x : List (List Word)) : (s.withEventLog x).eventLog = x := rfl

/-! ### `respond` -/

@[simp] theorem respond_params (st : Status) (i : Byte) (c : TCode) (k : Option Word) (s : State) : (respond st i c k s).params = s.params := rfl
@[simp] theorem respond_exact (st : Status) (i : Byte) (c : TCode) (k : Option Word) (s : State) : (respond st i c k s).exact = s.exact := rfl
@[simp] theorem respond_masked (st : Status) (i : Byte) (c : TCode) (k : Option Word) (s : State) : (respond st i c k s).masked = s.masked := rfl
@[simp] theorem respond_ctx (st : Status) (i : Byte) (c : TCode) (k : Option Word) (s : State) : (respond st i c k s).ctx = s.ctx := rfl
@[simp] theorem respond_cmd (st : Status) (i : Byte) (c : TCode) (k : Option Word) (s : State) : (respond st i c k s).cmd = s.cmd := rfl
@[simp] theorem respond_resp (st : Status) (i : Byte) (c : TCode) (k : Option Word) (s : State) : (respond st i c k s).resp = some { status := st, segIdx := i, tcode := c, key := k } := rfl
@[simp] theorem respond_outq (st : Status) (i : Byte) (c : TCode) (k : Option Word) (s : State) : (respond st i c k s).outq = s.outq := rfl
@[simp] theorem respond_cmdPort (st : Status) (i : Byte) (c : TCode) (k : Option Word) (s : State) : (respond st i c k s).cmdPort = s.cmdPort := rfl
@[simp] theorem respond_answer (st : Status) (i : Byte) (c : TCode) (k : Option Word) (s : State) : (respond st i c k s).answer = s.answer := rfl
@[simp] theorem respond_rxPort (st : Status) (i : Byte) (c : TCode) (k : Option Word) (s : State) : (respond st i c k s).rxPort = s.rxPort := rfl
@[simp] theorem respond_script (st : Status) (i : Byte) (c : TCode) (k : Option Word) (s : State) : (respond st i c k s).script = s.script := rfl
@[simp] theorem respond_txLog (st : Status) (i : Byte) (c : TCode) (k : Option Word) (s : State) : (respond st i c k s).txLog = s.txLog := rfl
@[simp] theorem respond_ctlLog (st : Status) (i : Byte) (c : TCode) (k : Option Word) (s : State) : (respond st i c k s).ctlLog = s.ctlLog := rfl
@[simp] theorem respond_respLog (st : Status) (i : Byte) (c : TCode) (k : Option Word) (s : State) : (respond st i c k s).respLog = s.respLog := rfl
@[simp] theorem respond_eventLog (st : Status) (i : Byte) (c : TCode) (k : Option Word) (s : State) : (respond st i c k s).eventLog = s.eventLog := rfl

/-! ### `respondIllegal` -/

@[simp] theorem respondIllegal_params (s : State) : (respondIllegal s).params = s.params := rfl
@[simp] theorem respondIllegal_exact (s : State) : (respondIllegal s).exact = s.exact := rfl
@[simp] theorem respondIllegal_masked (s : State) : (respondIllegal s).masked = s.masked := rfl
@[simp] theorem respondIllegal_ctx (s : State) : (respondIllegal s).ctx = s.ctx := rfl
@[simp] theorem respondIllegal_cmd (s : State) : (respondIllegal s).cmd = s.cmd := rfl
@[simp] theorem respondIllegal_resp (s : State) : (respondIllegal s).resp = some { status := .illegalCommand, segIdx := 0, tcode := 0, key := none } := rfl
@[simp] theorem respondIllegal_outq (s : State) : (respondIllegal s).outq = s.outq := rfl
@[simp] theorem respondIllegal_cmdPort (s : State) : (respondIllegal s).cmdPort = s.cmdPort := rfl
@[simp] theorem respondIllegal_answer (s : State) : (respondIllegal s).answer = s.answer := rfl
@[simp] theorem respondIllegal_rxPort (s : State) : (respondIllegal s).rxPort = s.rxPort := rfl
@[simp] theorem respondIllegal_script (s : State) : (respondIllegal s).script = s.script := rfl
@[simp] theorem respondIllegal_txLog (s : State) : (respondIllegal s).txLog = s.txLog := rfl
@[simp] theorem respondIllegal_ctlLog (s : State) : (respondIllegal s).ctlLog = s.ctlLog := rfl
@[simp] theorem respondIllegal_respLog (s : State) : (respondIllegal s).respLog = s.respLog := rfl
@[simp] theorem respondIllegal_eventLog (s : State) : (respondIllegal s).eventLog = s.eventLog := rfl

/-! ### `respondOk` -/

@[simp] theorem respondOk_params (s : State) : (respondOk s).params = s.params := rfl
@[simp] theorem respondOk_exact (s : State) : (respondOk s).exact = s.exact := rfl
@[simp] theorem respondOk_masked (s : State) : (respondOk s).masked = s.masked := rfl
@[simp] theorem respondOk_ctx (s : State) : (respondOk s).ctx = s.ctx := rfl
@[simp] theorem respondOk_cmd (s : State) : (respondOk s).cmd = s.cmd := rfl
@[simp] theorem respondOk_resp (s : State) : (respondOk s).resp = some { status := .ok, segIdx := 0, tcode := 0, key := none } := rfl
@[simp] theorem respondOk_outq (s : State) : (respondOk s).outq = s.outq := rfl
@[simp] theorem respondOk_cmdPort (s : State) : (respondOk s).cmdPort = s.cmdPort := rfl
@[simp] theorem respondOk_answer (s : State) : (respondOk s).answer = s.answer := rfl
@[simp] theorem respondOk_rxPort (s : State) : (respondOk s).rxPort = s.rxPort := rfl
@[simp] theorem respondOk_script (s : State) : (respondOk s).script = s.script := rfl
@[simp] theorem respondOk_txLog (s : State) : (respondOk s).txLog = s.txLog := rfl
@[simp] theorem respondOk_ctlLog (s : State) : (respondOk s).ctlLog = s.ctlLog := rfl
@[simp] theorem respondOk_respLog (s : State) : (respondOk s).respLog = s.respLog := rfl
@[simp] theorem respondOk_eventLog (s : State) : (respondOk s).eventLog = s.eventLog := rfl

/-! ### `emit` -/

@[simp] theorem emit_params (e : Event) (s : State) : (emit e s).params = s.params := rfl
@[simp] theorem emit_exact (e : Event) (s : State) : (emit e s).exact = s.exact := rfl
@[simp] theorem emit_masked (e : Event) (s : State) : (emit e s).masked = s.masked := rfl
@[simp] theorem emit_ctx (e : Event) (s : State) : (emit e s).ctx = s.ctx := rfl
@[simp] theorem emit_cmd (e : Event) (s : State) : (emit e s).cmd = s.cmd := rfl
@[simp] theorem emit_resp (e : Event) (s : State) : (emit e s).resp = s.resp := rfl
@[simp] theorem emit_outq (e : Event) (s : State) : (emit e s).outq = s.outq ++ [e] := rfl
@[simp] theorem emit_cmdPort (e : Event) (s : State) : (emit e s).cmdPort = s.cmdPort := rfl
@[simp] theorem emit_answer (e : Event) (s : State) : (emit e s).answer = s.answer := rfl
@[simp] theorem emit_rxPort (e : Event) (s : State) : (emit e s).rxPort = s.rxPort := rfl
@[simp] theorem emit_script (e : Event) (s : State) : (emit e s).script = s.script := rfl
@[simp] theorem emit_txLog (e : Event) (s : State) : (emit e s).txLog = s.txLog := rfl
@[simp] theorem emit_ctlLog (e : Event) (s : State) : (emit e s).ctlLog = s.ctlLog := rfl
@[simp] theorem emit_respLog (e : Event) (s : State) : (emit e s).respLog = s.respLog := rfl
@[simp] theorem emit_eventLog (e : Event) (s : State) : (emit e s).eventLog = s.eventLog := rfl

/-! ### `txSend` -/

@[simp] theorem txSend_params (op : SendOp) (id : Ident) (size : Len) (n i : Nat) (r : List Byte) (f : Frame) (s : State) : (txSend op id size n i r f s).params = s.params := rfl
@[simp] theorem txSend_exact (op : SendOp) (id : Ident) (size : Len) (n i : Nat) (r : List Byte) (f : Frame) (s : State) : (txSend op id size n i r f s).exact = s.exact := rfl
@[simp] theorem txSend_masked (op : SendOp) (id : Ident) (size : Len) (n i : Nat) (r : List Byte) (f : Frame) (s : State) : (txSend op id size n i r f s).masked = s.masked := rfl
@[simp] theorem txSend_ctx (op : SendOp) (id : Ident) (size : Len) (n i : Nat) (r : List Byte) (f : Frame) (s : State) : (txSend op id size n i r f s).ctx = s.ctx := rfl
@[simp] theorem txSend_cmd (op : SendOp) (id : Ident) (size : Len) (n i : Nat) (r : List Byte) (f : Frame) (s : State) : (txSend op id size n i r f s).cmd = .txWait op id size n i r f := rfl
@[simp] theorem txSend_resp (op : SendOp) (id : Ident) (size : Len) (n i : Nat) (r : List Byte) (f : Frame) (s : State) : (txSend op id size n i r f s).resp = s.resp := rfl
@[simp] theorem txSend_outq (op : SendOp) (id : Ident) (size : Len) (n i : Nat) (r : List Byte) (f : Frame) (s : State) : (txSend op id size n i r f s).outq = s.outq := rfl
@[simp] theorem txSend_cmdPort (op : SendOp) (id : Ident) (size : Len) (n i : Nat) (r : List Byte) (f : Frame) (s : State) : (txSend op id size n i r f s).cmdPort = s.cmdPort := rfl
@[simp] theorem txSend_answer (op : SendOp) (id : Ident) (size : Len) (n i : Nat) (r : List Byte) (f : Frame) (s : State) : (txSend op id size n i r f s).answer = s.answer := rfl
@[simp] theorem txSend_rxPort (op : SendOp) (id : Ident) (size : Len) (n i : Nat) (r : List Byte) (f : Frame) (s : State) : (txSend op id size n i r f s).rxPort = s.rxPort := rfl
@[simp] theorem txSend_script (op : SendOp) (id : Ident) (size : Len) (n i : Nat) (r : List Byte) (f : Frame) (s : State) : (txSend op id size n i r f s).script = s.script := rfl
@[simp] theorem txSend_txLog (op : SendOp) (id : Ident) (size : Len) (n i : Nat) (r : List Byte) (f : Frame) (s : State) : (txSend op id size n i r f s).txLog = s.txLog ++ [f] := rfl
@[simp] theorem txSend_ctlLog (op : SendOp) (id : Ident) (size : Len) (n i : Nat) (r : List Byte) (f : Frame) (s : State) : (txSend op id size n i r f s).ctlLog = s.ctlLog := rfl
@[simp] theorem txSend_respLog (op : SendOp) (id : Ident) (size : Len) (n i : Nat) (r : List Byte) (f : Frame) (s : State) : (txSend op id size n i r f s).respLog = s.respLog := rfl
@[simp] theorem txSend_eventLog (op : SendOp) (id : Ident) (size : Len) (n i : Nat) (r : List Byte) (f : Frame) (s : State) : (txSend op id size n i r f s).eventLog = s.eventLog := rfl

/-! ### `ctrl` -/

@[simp] theorem ctrl_params (op : CtlOp) (s : State) : (ctrl op s).params = s.params := rfl
@[simp] theorem ctrl_exact (op : CtlOp) (s : State) : (ctrl op s).exact = s.exact := rfl
@[simp] theorem ctrl_masked (op : CtlOp) (s : State) : (ctrl op s).masked = s.masked := rfl
@[simp] theorem ctrl_ctx (op : CtlOp) (s : State) : (ctrl op s).ctx = s.ctx := rfl
@[simp] theorem ctrl_cmd (op : CtlOp) (s : State) : (ctrl op s).cmd = .ctlWait op := rfl
@[simp] theorem ctrl_resp (op : CtlOp) (s : State) : (ctrl op s).resp = s.resp := rfl
@[simp] theorem ctrl_outq (op : CtlOp) (s : State) : (ctrl op s).outq = s.outq := rfl
@[simp] theorem ctrl_cmdPort (op : CtlOp) (s : State) : (ctrl op s).cmdPort = s.cmdPort := rfl
@[simp] theorem ctrl_answer (op : CtlOp) (s : State) : (ctrl op s).answer = s.answer := rfl
@[simp] theorem ctrl_rxPort (op : CtlOp) (s : State) : (ctrl op s).rxPort = s.rxPort := rfl
@[simp] theorem ctrl_script (op : CtlOp) (s : State) : (ctrl op s).script = s.script := rfl
@[simp] theorem ctrl_txLog (op : CtlOp) (s : State) : (ctrl op s).txLog = s.txLog := rfl
@[simp] theorem ctrl_ctlLog (op : CtlOp) (s : State) : (ctrl op s).ctlLog = s.ctlLog ++ [op] := rfl
@[simp] theorem ctrl_respLog (op : CtlOp) (s : State) : (ctrl op s).respLog = s.respLog := rfl
@[simp] theorem ctrl_eventLog (op : CtlOp) (s : State) : (ctrl op s).eventLog = s.eventLog := rfl

/-! ### `resetBlock` -/

@[simp] theorem resetBlock_params (s : State) : (resetBlock s).params = s.params := rfl
@[simp] theorem resetBlock_exact (s : State) : (resetBlock s).exact = [] := rfl
@[simp] theorem resetBlock_masked (s : State) : (resetBlock s).masked = [] := rfl
@[simp] theorem resetBlock_ctx (s : State) : (resetBlock s).ctx = [] := rfl
@[simp] theorem resetBlock_cmd (s : State) : (resetBlock s).cmd = .idle := rfl
@[simp] theorem resetBlock_resp (s : State) : (resetBlock s).resp = none := rfl
@[simp] theorem resetBlock_outq (s : State) : (resetBlock s).outq = [] := rfl
@[simp] theorem resetBlock_cmdPort (s : State) : (resetBlock s).cmdPort = s.cmdPort := rfl
@[simp] theorem resetBlock_answer (s : State) : (resetBlock s).answer = none := rfl
@[simp] theorem resetBlock_rxPort (s : State) : (resetBlock s).rxPort = s.rxPort := rfl
@[simp] theorem resetBlock_script (s : State) : (resetBlock s).script = s.script := rfl
@[simp] theorem resetBlock_txLog (s : State) : (resetBlock s).txLog = s.txLog := rfl
@[simp] theorem resetBlock_ctlLog (s : State) : (resetBlock s).ctlLog = s.ctlLog := rfl
@[simp] theorem resetBlock_respLog (s : State) : (resetBlock s).respLog = s.respLog := rfl
@[simp] theorem resetBlock_eventLog (s : State) : (resetBlock s).eventLog = s.eventLog := rfl

/-! ### `offering` -/

@[simp] theorem offering_params (ws : List Word) (s : State) : (s.offering ws).params = s.params := rfl
@[simp] theorem offering_exact (ws : List Word) (s : State) : (s.offering ws).exact = s.exact := rfl
@[simp] theorem offering_masked (ws : List Word) (s : State) : (s.offering ws).masked = s.masked := rfl
@[simp] theorem offering_ctx (ws : List Word) (s : State) : (s.offering ws).ctx = s.ctx := rfl
@[simp] theorem offering_cmd (ws : List Word) (s : State) : (s.offering ws).cmd = .idle := rfl
@[simp] theorem offering_resp (ws : List Word) (s : State) : (s.offering ws).resp = none := rfl
@[simp] theorem offering_outq (ws : List Word) (s : State) : (s.offering ws).outq = s.outq := rfl
@[simp] theorem offering_cmdPort (ws : List Word) (s : State) : (s.offering ws).cmdPort = ws := rfl
@[simp] theorem offering_answer (ws : List Word) (s : State) : (s.offering ws).answer = s.answer := rfl
@[simp] theorem offering_rxPort (ws : List Word) (s : State) : (s.offering ws).rxPort = s.rxPort := rfl
@[simp] theorem offering_script (ws : List Word) (s : State) : (s.offering ws).script = .cmd :: s.script := rfl
@[simp] theorem offering_txLog (ws : List Word) (s : State) : (s.offering ws).txLog = s.txLog := rfl
@[simp] theorem offering_ctlLog (ws : List Word) (s : State) : (s.offering ws).ctlLog = s.ctlLog := rfl
@[simp] theorem offering_respLog (ws : List Word) (s : State) : (s.offering ws).respLog = s.respLog := rfl
@[simp] theorem offering_eventLog (ws : List Word) (s : State) : (s.offering ws).eventLog = s.eventLog := rfl

/-! ### `finish` -/

@[simp] theorem finish_params (i : Nat) (t : TRes) (s : State) : (finish i t s).params = s.params := by cases t <;> rfl
@[simp] theorem finish_exact (i : Nat) (t : TRes) (s : State) : (finish i t s).exact = s.exact := by cases t <;> rfl
@[simp] theorem finish_masked (i : Nat) (t : TRes) (s : State) : (finish i t s).masked = s.masked := by cases t <;> rfl
@[simp] theorem finish_ctx (i : Nat) (t : TRes) (s : State) : (finish i t s).ctx = s.ctx := by cases t <;> rfl
@[simp] theorem finish_outq (i : Nat) (t : TRes) (s : State) : (finish i t s).outq = s.outq := by cases t <;> rfl
@[simp] theorem finish_cmdPort (i : Nat) (t : TRes) (s : State) : (finish i t s).cmdPort = s.cmdPort := by cases t <;> rfl
@[simp] theorem finish_answer (i : Nat) (t : TRes) (s : State) : (finish i t s).answer = s.answer := by cases t <;> rfl
@[simp] theorem finish_rxPort (i : Nat) (t : TRes) (s : State) : (finish i t s).rxPort = s.rxPort := by cases t <;> rfl
@[simp] theorem finish_script (i : Nat) (t : TRes) (s : State) : (finish i t s).script = s.script := by cases t <;> rfl
@[simp] theorem finish_txLog (i : Nat) (t : TRes) (s : State) : (finish i t s).txLog = s.txLog := by cases t <;> rfl
@[simp] theorem finish_ctlLog (i : Nat) (t : TRes) (s : State) : (finish i t s).ctlLog = s.ctlLog := by cases t <;> rfl
@[simp] theorem finish_respLog (i : Nat) (t : TRes) (s : State) : (finish i t s).respLog = s.respLog := by cases t <;> rfl
@[simp] theorem finish_eventLog (i : Nat) (t : TRes) (s : State) : (finish i t s).eventLog = s.eventLog := by cases t <;> rfl

@[simp] theorem finish_cmd (i : Nat) (t : TRes) (s : State) : (finish i t s).cmd = .idle := by cases t <;> rfl

@[simp] theorem finish_resp_ok (i : Nat) (s : State) :
    (finish i .ok s).resp = some { status := .ok, segIdx := 0, tcode := 0, key := none } := rfl

@[simp] theorem finish_resp_fail (i : Nat) (c : TCode) (s : State) :
    (finish i (.fail c) s).resp
      = some { status := .transportFailure, segIdx := BitVec.ofNat 8 i, tcode := c, key := none } := rfl

end Sys2Proof.Machine
end

