-- ==== Sys2Proof/Laws/Step.lean ====
section
/-! SUPPORT. What each shared operation and each agent's turn can do, said once: later proofs cite these shapes and do not unfold
the meanings. -/

namespace Sys2Proof.Machine

/-! ### CMD's first step -/

/-- The states a command's first step can leave: a response and nothing else, one offer, or one table change with OK. -/
theorem exec_shape (i : Instr) (s : State) :
    (∃ st k, exec i s = .next (respond st 0 0 k s)) ∨
    (∃ op id size n r f, exec i s = .next (txSend op id size n 0 r f s)) ∨
    (∃ op, exec i s = .next (ctrl op s)) ∨
    (∃ l, exec i s = .next (respondOk (s.withExact l))) ∨
    (∃ l, exec i s = .next (respondOk (s.withMasked l))) := by
  cases i with
  | compose h b =>
    refine .inl ?_
    simp only [exec, execCompose]
    split
    · exact ⟨_, _, rfl⟩
    · exact ⟨_, _, rfl⟩
  | sendFrame h a b c =>
    simp only [exec, execSendFrame]
    split
    · exact .inl ⟨_, _, rfl⟩
    · exact .inr (.inl ⟨_, _, _, _, _, _, rfl⟩)
  | sendRecord h b d =>
    simp only [exec, execSendRecord]
    split
    · exact .inl ⟨_, _, rfl⟩
    · exact .inr (.inl ⟨_, _, _, _, _, _, rfl⟩)
  | sendQuery h b =>
    simp only [exec, execSendQuery]
    split
    · exact .inl ⟨_, _, rfl⟩
    · exact .inr (.inl ⟨_, _, _, _, _, _, rfl⟩)
  | register h k t =>
    simp only [exec, execRegister]
    split
    · exact .inl ⟨_, _, rfl⟩
    · split
      · exact .inl ⟨_, _, rfl⟩
      · split
        · exact .inl ⟨_, _, rfl⟩
        · exact .inr (.inr (.inr (.inl ⟨_, rfl⟩)))
  | registerMasked h b m t =>
    simp only [exec, execRegisterMasked]
    split
    · exact .inl ⟨_, _, rfl⟩
    · split
      · exact .inl ⟨_, _, rfl⟩
      · split
        · exact .inl ⟨_, _, rfl⟩
        · exact .inr (.inr (.inr (.inr ⟨_, rfl⟩)))
  | remove h k =>
    simp only [exec, execRemove]
    split
    · exact .inl ⟨_, _, rfl⟩
    · exact .inr (.inr (.inr (.inl ⟨_, rfl⟩)))
  | removeMasked h b m =>
    simp only [exec, execRemoveMasked]
    split
    · exact .inl ⟨_, _, rfl⟩
    · exact .inr (.inr (.inr (.inr ⟨_, rfl⟩)))
  | openChannel h =>
    simp only [exec, execOpen]
    split
    · exact .inl ⟨_, _, rfl⟩
    · exact .inr (.inr (.inl ⟨_, rfl⟩))
  | closeChannel h =>
    simp only [exec, execClose]
    split
    · exact .inl ⟨_, _, rfl⟩
    · exact .inr (.inr (.inl ⟨_, rfl⟩))

/-! ### CMD's answer step -/

/-- An answer finishes the command, or the segmenter offers the next segment. -/
theorem takeAnswer_shape (t : TRes) (s : State) :
    (s.cmd = .idle ∧ takeAnswer t s = s) ∨
    (∃ i, takeAnswer t s = finish i t s) ∨
    (∃ id size n i r f, s.cmd = .txWait .sendRecord id size n i r f ∧ t = .ok ∧ i + 1 ≠ n ∧
      takeAnswer t s = txSend .sendRecord id size n (i + 1) r (frameOf id size.toNat r (i + 1)) s) := by
  unfold takeAnswer
  split
  · exact .inl ⟨by assumption, rfl⟩
  · exact .inr (.inl ⟨0, rfl⟩)
  · exact .inr (.inl ⟨0, rfl⟩)
  · rename_i id size n i r f hc
    unfold answerSendRecord
    split
    · rename_i h
      exact .inr (.inr ⟨id, size, n, i, r, f, hc, h.1, h.2, rfl⟩)
    · exact .inr (.inl ⟨i, rfl⟩)
  · exact .inr (.inl ⟨0, rfl⟩)
  · exact .inr (.inl ⟨0, rfl⟩)

/-! ### RXE -/

/-- Storing a segment writes `CTX` and emits at most the completed record. -/
theorem storeSegment_shape (tag : Tag) (f : Frame) (idx : Nat) (c : Context) (s : State) :
    (allSet (setBit c.received idx) = true ∧
      storeSegment tag f idx c s
        = emit (.record tag f.key c.size (c.accept f idx).value) (s.withCtx (Memory.erase s.ctx f.id))) ∨
    (allSet (setBit c.received idx) = false ∧
      storeSegment tag f idx c s = s.withCtx (Memory.put s.ctx (c.accept f idx))) := by
  unfold storeSegment
  by_cases h : allSet (setBit c.received idx) = true
  · exact .inl ⟨h, if_pos h⟩
  · exact .inr ⟨by simpa using h, if_neg h⟩

/-- RXE's step touches `CTX` and, at most once, `OUTQ` (R100, R116). -/
theorem receive_shape (f : Frame) (s : State) :
    ∃ m, receive f s = s.withCtx m ∨ ∃ e, receive f s = emit e (s.withCtx m) := by
  have store : ∀ tag idx c (u : State),
      ∃ m, storeSegment tag f idx c u = u.withCtx m ∨ ∃ e, storeSegment tag f idx c u = emit e (u.withCtx m) := by
    intro tag idx c u
    rcases storeSegment_shape tag f idx c u with ⟨_, h⟩ | ⟨_, h⟩
    · exact ⟨_, .inr ⟨_, h⟩⟩
    · exact ⟨_, .inl h⟩
  unfold receive
  split
  · exact ⟨s.ctx, .inl rfl⟩
  · split
    · exact ⟨s.ctx, .inl rfl⟩
    · rename_i t _
      unfold takeSelected
      split
      · exact ⟨s.ctx, .inr ⟨_, rfl⟩⟩
      · split
        · unfold takeSingle
          split <;> exact ⟨s.ctx, .inr ⟨_, rfl⟩⟩
        · unfold takeSegment
          split
          · exact ⟨s.ctx, .inr ⟨_, rfl⟩⟩
          · simp only [takeIndexed]
            split
            · exact ⟨_, .inr ⟨_, rfl⟩⟩
            · split
              · exact store _ _ _ (s.withCtx (Memory.dropOtherSize s.ctx f.id t.len))
              · split
                · exact ⟨_, .inr ⟨_, rfl⟩⟩
                · exact store _ _ _ (s.withCtx (Memory.dropOtherSize s.ctx f.id t.len))

/-! ### Turns -/

theorem step_nil {s : State} (h : s.script = []) : step s = .next s := by simp [step, turn, h]

theorem step_cons {s : State} {m : Move} {ms : List Move} (h : s.script = m :: ms) :
    step s = move m (s.withScript ms) := by simp [step, turn, h]

/-- CMD's turn: it holds, or takes an answer, or takes a command. -/
theorem cmdMove_shape (s : State) :
    cmdMove s = .next s ∨
    (s.resp = none ∧ ∃ t, s.answer = some t ∧ cmdMove s = .next (takeAnswer t (s.withAnswer none))) ∨
    (s.resp = none ∧ s.cmd = .idle ∧ cmdMove s = takeCommand s) := by
  unfold cmdMove
  by_cases hr : s.responseValid = true
  · simp [hr]
  · have hn : s.resp = none := by simpa [State.responseValid] using hr
    simp only [hr, Bool.false_eq_true, if_false]
    by_cases hb : s.busy = true
    · simp only [hb, if_true]
      cases ha : s.answer with
      | none => exact .inl rfl
      | some t => exact .inr (.inl ⟨hn, t, rfl, rfl⟩)
    · refine .inr (.inr ⟨hn, ?_, by simp [hb]⟩)
      cases hc : s.cmd <;> simp [State.busy, hc] at hb ⊢

/-- Taking a command: an error that waits, an unknown opcode's response, or the command's first step. -/
theorem takeCommand_shape (s : State) :
    takeCommand s = .next s ∨
    takeCommand s = .next (respondIllegal (s.withCmdPort (s.cmdPort.drop 1))) ∨
    (∃ i rest, decode s.cmdPort = .ok (i, rest) ∧ takeCommand s = exec i (s.withCmdPort rest)) := by
  unfold takeCommand
  split
  · rename_i i rest h
    exact .inr (.inr ⟨i, rest, h, rfl⟩)
  · exact .inr (.inl rfl)
  · exact .inl rfl
  · exact .inl rfl

/-! ### The command port -/

@[simp] theorem oneCommand_nil : oneCommand [] = false := rfl

@[simp] theorem oneCommand_cons (w0 : Word) (ws : List Word) :
    oneCommand (w0 :: ws) = true ↔ (w0 :: ws).length = commandWords w0 := by simp [oneCommand]

/-- What the decoder leaves is what stands behind the words R67 counts, which have all come. -/
theorem decode_rest {w0 : Word} {ws rest : List Word} {i : Instr} (h : decode (w0 :: ws) = .ok (i, rest)) :
    commandWords w0 ≤ (w0 :: ws).length ∧ rest = (w0 :: ws).drop (commandWords w0) := by
  simp only [decode] at h
  cases ho : Opcode.ofCode (opcField w0) with
  | none => simp [ho] at h
  | some o =>
    simp only [ho] at h
    split at h
    · cases h
    · rename_i hn
      have e := Except.ok.inj h
      simp only [Prod.mk.injEq] at e
      simp only [commandWords, ho, List.length_cons]
      refine ⟨by omega, ?_⟩
      rw [← e.2, Nat.add_comm, List.drop_succ_cons]

/-! ### The host and the transport -/

/-- A turn of the host: nothing, one command on the free port, a read, a pop, or reset. -/
theorem hostMove_shape (a : HostAct) (s : State) :
    hostMove a s = s ∨
    (∃ ws, a = .issue ws ∧ s.cmdPort = [] ∧ oneCommand ws = true ∧ hostMove a s = s.withCmdPort ws) ∨
    (∃ r, a = .readResponse ∧ s.resp = some r ∧ hostMove a s = (s.withResp none).withRespLog (s.respLog ++ [r.words])) ∨
    (∃ e es, a = .popEvent ∧ s.outq = e :: es ∧ hostMove a s = (s.withOutq es).withEventLog (s.eventLog ++ [e.words])) ∨
    (a = .assertReset ∧ hostMove a s = resetBlock s) := by
  cases a with
  | issue ws =>
    simp only [hostMove]
    split
    · rename_i h
      simp only [State.portReady, Bool.and_eq_true, List.isEmpty_iff] at h
      exact .inr (.inl ⟨ws, rfl, h.1, h.2, rfl⟩)
    · exact .inl rfl
  | readResponse =>
    cases h : s.resp with
    | none => exact .inl (by simp only [hostMove, h])
    | some r => exact .inr (.inr (.inl ⟨r, rfl, rfl, by simp only [hostMove, h]⟩))
  | popEvent =>
    cases h : s.outq with
    | nil => exact .inl (by simp only [hostMove, h])
    | cons e es => exact .inr (.inr (.inr (.inl ⟨e, es, rfl, rfl, by simp only [hostMove, h]⟩)))
  | assertReset => exact .inr (.inr (.inr (.inr ⟨rfl, rfl⟩)))

/-- A turn of the transport: nothing, the answer to a pending offer, or a frame on the free RX port. -/
theorem transportMove_shape (a : TransportAct) (s : State) :
    transportMove a s = s ∨
    (∃ t, a = .answer t ∧ s.busy = true ∧ s.answer = none ∧ transportMove a s = s.withAnswer (some t)) ∨
    (∃ f, a = .offerFrame f ∧ s.rxPort = none ∧ transportMove a s = s.withRxPort (some f)) := by
  cases a with
  | answer t =>
    simp only [transportMove]
    split
    · rename_i h
      simp only [Bool.and_eq_true, Option.isNone_iff_eq_none] at h
      exact .inr (.inl ⟨t, rfl, h.1, h.2, rfl⟩)
    · exact .inl rfl
  | answerWithdrawn t => exact .inl rfl
  | offerFrame f =>
    cases h : s.rxPort with
    | none => exact .inr (.inr ⟨f, rfl, rfl, by simp only [transportMove, h]⟩)
    | some g => exact .inl (by simp only [transportMove, h])

end Sys2Proof.Machine
end

