-- ==== Sys2Proof/Laws/Receive.lean ====
section
/-! SUPPORT. RXE's arms: which one a frame takes, and the context a valid segment is written into. -/

namespace Sys2Proof.Machine

/-! ### What a well-formed state says of `CTX` -/

theorem State.wf_ctx {s : State} (h : s.wf = true) : Memory.wf s.ctx = true := by
  simp [State.wf, ctxWf] at h; tauto

theorem Memory.wf_find {m : Memory} {id : Ident} {c : Context} (h : Memory.wf m = true) (hf : Memory.find m id = some c) :
    c.wf = true := ((Memory.wf_iff m).1 h).2 c (Memory.find_mem hf)

theorem Context.wf_sizes {c : Context} (h : c.wf = true) :
    8 < c.size.toNat ∧ c.size.toNat ≤ 1792 ∧ c.received.length = nseg c.size.toNat ∧ c.value.length = c.size.toNat := by
  simp [Context.wf] at h; tauto

/-! ### Arms of R117 -/

section arms

variable {s : State} {f : Frame} {t : Target}

theorem receive_selected (he : f.ext = true) (h8 : f.size.toNat ≤ 8) (hsel : select s.exact s.masked f.key = some t) :
    receive f s = takeSelected t f s := by
  have : ¬ (f.ext = false ∨ 8 < f.size.toNat) := by simp [he, h8]
  simp only [receive, if_neg this, hsel]

theorem takeSelected_multi (hr : f.rtr = false) (hl : 8 < t.len.toNat) : takeSelected t f s = takeSegment t.len t.tag f s := by
  have h0 : ¬ (f.rtr = true ∨ t.len.toNat = 0) := by simp [hr]; omega
  have h1 : ¬ t.len.toNat ≤ singleMax := by simp only [singleMax]; omega
  simp only [takeSelected, if_neg h0, if_neg h1]

/-- A data frame with an index byte under a multi-segment entry reaches the indexed arms, after the other-size discard. -/
theorem receive_indexed (he : f.ext = true) (hr : f.rtr = false) (h1 : 1 ≤ f.size.toNat) (h8 : f.size.toNat ≤ 8)
    (hsel : select s.exact s.masked f.key = some t) (hl : 8 < t.len.toNat) :
    receive f s = takeIndexed t.len t.tag f (s.withCtx (Memory.dropOtherSize s.ctx f.id t.len)) := by
  have hz : f.size ≠ 0 := by rintro e; rw [e] at h1; exact absurd h1 (by decide)
  rw [receive_selected he h8 hsel, takeSelected_multi hr hl]
  simp only [takeSegment, if_neg hz]

end arms

/-- The context a valid segment is written into: the identifier's own, or a new one where there is room. It has the entry's size,
`N` bits and `S` bytes, and reads as `CTX` reads for that identifier. -/
theorem takeIndexed_inRange {s : State} {f : Frame} {size : Len} {tag : Tag} (hwf : Memory.wf s.ctx = true)
    (hsize : ∀ c, Memory.find s.ctx f.id = some c → c.size = size) (hi : (f.byte 0).toNat < nseg size.toNat)
    (hroom : Memory.find s.ctx f.id = none → s.ctx.length < s.params.nctx) :
    ∃ c : Context, c.id = f.id ∧ c.size = size ∧ c.received.length = nseg size.toNat ∧ c.value.length = size.toNat ∧
      (∀ off, c.value.getD off 0 = Memory.readByte s.ctx f.id off) ∧
      (∀ j, c.received.getD j false = Memory.readBit s.ctx f.id j) ∧
      takeIndexed size tag f s = storeSegment tag f (f.byte 0).toNat c s := by
  have hn : ¬ nseg size.toNat ≤ (f.byte 0).toNat := by omega
  cases hfd : Memory.find s.ctx f.id with
  | some c =>
    have hs := hsize c hfd
    obtain ⟨-, -, hr, hv⟩ := Context.wf_sizes (Memory.wf_find hwf hfd)
    refine ⟨c, Memory.find_id hfd, hs, hs ▸ hr, hs ▸ hv, fun off => ?_, fun j => ?_, ?_⟩
    · simp [Memory.readByte, hfd]
    · simp [Memory.readBit, hfd]
    · simp only [takeIndexed, if_neg hn, hfd]
  | none =>
    have hr : ¬ s.params.nctx ≤ s.ctx.length := by have := hroom hfd; omega
    refine ⟨newContext f.id size (nseg size.toNat), rfl, rfl, by simp [newContext, clearBits], by simp [newContext],
      fun off => ?_, fun j => ?_, ?_⟩
    · simp only [Memory.readByte, hfd, newContext, List.getD_eq_getElem?_getD, List.getElem?_replicate]
      split <;> rfl
    · simp only [Memory.readBit, hfd, newContext, clearBits, List.getD_eq_getElem?_getD, List.getElem?_replicate]
      split <;> rfl
    · simp only [takeIndexed, if_neg hn, hfd, if_neg hr]

/-! ### What an accepted segment's buffer and bitmap read as -/

/-- Byte `j` of the payload that is stored is data byte `1 + j` (R112). -/
theorem payload_getD (f : Frame) {n j : Nat} (h : j < n) : ((f.data.toList.drop 1).take n).getD j 0 = f.byte (1 + j) := by
  simp [Frame.byte, List.getD_eq_getElem?_getD, h, Nat.add_comm]

theorem payload_length (f : Frame) {n : Nat} (h : n ≤ 7) : ((f.data.toList.drop 1).take n).length = n := by
  simp; omega

theorem accept_value_getD {c : Context} {f : Frame} {i : Nat} (h8 : f.size.toNat ≤ 8) (off : Nat) :
    (c.accept f i).value.getD off 0 =
      if off < c.value.length ∧ 7 * i ≤ off ∧ off < 7 * i + min (f.size.toNat - 1) (c.size.toNat - 7 * i)
      then f.byte (1 + (off - 7 * i)) else c.value.getD off 0 := by
  have hlen : ((f.data.toList.drop 1).take (storedLen f.size.toNat c.size.toNat i)).length
      = min (f.size.toNat - 1) (c.size.toNat - 7 * i) := by
    rw [payload_length]
    · rfl
    · simp only [storedLen]; omega
  by_cases hlt : off < c.value.length
  · simp only [Context.accept, bufWrite_getD _ _ _ hlt, hlen, hlt, true_and, segPayload]
    split
    · rename_i h
      rw [payload_getD]
      simp only [storedLen, segPayload]; omega
    · rfl
  · simp only [hlt, false_and, if_false]
    rw [List.getD_eq_getElem?_getD, List.getD_eq_getElem?_getD, List.getElem?_eq_none (by simp; omega),
      List.getElem?_eq_none (by omega)]

/-- A bitmap with one bit set is full exactly when every other bit was. -/
theorem allSet_setBit {bits : List Bool} {i : Nat} (hi : i < bits.length) :
    allSet (setBit bits i) = true ↔ ∀ j, j < bits.length → j ≠ i → bits.getD j false = true := by
  simp only [allSet, List.all_eq_true]
  constructor
  · intro h j hj hji
    have hlt : j < (setBit bits i).length := by simpa using hj
    rw [← setBit_getD_other bits (Ne.symm hji), List.getD_eq_getElem?_getD, List.getElem?_eq_getElem hlt]
    exact h _ (List.getElem_mem hlt)
  · intro h b hb
    obtain ⟨j, hj, rfl⟩ := List.mem_iff_getElem.1 hb
    have hj' : j < bits.length := by simpa using hj
    by_cases e : j = i
    · subst e; simp [setBit]
    · have h2 := h j hj' e
      rw [← setBit_getD_other bits (Ne.symm e), List.getD_eq_getElem?_getD, List.getElem?_eq_getElem hj] at h2
      exact h2

end Sys2Proof.Machine
end

