-- ==== Sys2Proof/Tests/Slice0.lean ====
section
/-! SUPPORT. Own tests: the checks of WellFormed, one word of the spec per command through the decoder, single steps whose expected
results stand in spec/95_test_vectors.md (the vector's name in the comment), and one witness per obligation that has hypotheses. -/

namespace Sys2Proof.Tests

open Sys2Proof Sys2Proof.Machine

/-! ### Helpers -/

/-- The state a step answers, `State.reset` where it answers none (no test expects that state). -/
def stateOf (r : Result) : State :=
  match r with
  | .next s => s
  | .fault _ => State.reset
  | .refused _ => State.reset

/-- One step of CMD on a freshly reset block with a command's words on the port. -/
def afterWords (ws : List Word) (s : State) : State := stateOf (step (s.offering ws))

/-- The words of the response slot. -/
def respWords (s : State) : Option (List Word) := s.resp.map Response.words

/-- The words of the queued events. -/
def outWords (s : State) : List (List Word) := s.outq.map Event.words

/-- A data frame of the protocol. -/
def dataFrame (id : Ident) (size : BitVec 4) (d : Vector Byte 8) : Frame :=
  { ext := true, rtr := false, id := id, size := size, data := d }

/-- A header with nothing set. -/
def h0 : Header := ⟨0, false, 0, 0⟩

/-- A header with a length only. -/
def hLen (n : Len) : Header := ⟨0, false, 0, n⟩

/-- The three segments of 95's X1. -/
def seg0 : Frame := dataFrame 0x00123405 8 #v[0x00, 0x00, 0x01, 0x02, 0x03, 0x04, 0x05, 0x06]

def seg1 : Frame := dataFrame 0x00123405 8 #v[0x01, 0x07, 0x08, 0x09, 0x0A, 0x0B, 0x0C, 0x0D]

def seg2 : Frame := dataFrame 0x00123405 7 #v[0x02, 0x0E, 0x0F, 0x10, 0x11, 0x12, 0x13, 0x00]

/-- A block that receives X1's record with tag 7, raw frames of `0x105` and 5-byte records of `0x205`. -/
def rx : State :=
  State.reset.withExact [⟨0x105, 0, 0xE1⟩, ⟨0x205, 5, 0x11⟩, ⟨0x00123405, 20, 7⟩]

/-- The same block after segment 0, with a masked entry for the other nodes. -/
def rxPartial : State := receive seg0 (rx.withMasked [⟨0x00123400, 0x1FFFFF00, 20, 9⟩])

/-- The words of X1's record, packed. -/
def rec20Words : List Word := [0x03020100, 0x07060504, 0x0B0A0908, 0x0F0E0D0C, 0x13121110]

/-! ### WellFormed: each check refuses a term, and accepts its legal neighbour -/

theorem test_wf_accepts : (Instr.compose ⟨5, true, 0, 0⟩ 0x1FFFFF).wellFormed = true := by decide

theorem test_wf_rsv : (Instr.compose ⟨5, false, 1, 0⟩ 0x1234).wellFormed = false := by decide

theorem test_wf_unused_node : (Instr.sendFrame ⟨1, false, 0, 2⟩ 0x105 0 0).wellFormed = false := by decide

theorem test_wf_unused_rtr : (Instr.sendQuery ⟨5, true, 0, 0⟩ 0x1234).wellFormed = false := by decide

theorem test_wf_len_low : (Instr.sendRecord h0 0x10 []).wellFormed = false := by decide

theorem test_wf_len_high : (Instr.sendFrame (hLen 9) 0x105 0 0).wellFormed = false := by decide

theorem test_wf_base_word : (Instr.compose h0 0x200000).wellFormed = false := by decide

theorem test_wf_id_word : (Instr.sendFrame h0 0x20000105 0 0).wellFormed = false := by decide

theorem test_wf_key_word : (Instr.register h0 0x80123405 9).wellFormed = false := by decide

theorem test_wf_mask_word : (Instr.registerMasked h0 0 0x20000000 1).wellFormed = false := by decide

theorem test_wf_tag_word : (Instr.register h0 0x00123406 0x10000).wellFormed = false := by decide

theorem test_wf_shape : (Instr.sendRecord (hLen 9) 0x10 [0, 0]).wellFormed = false := by decide

/-! ### Decode: words of the spec -/

/-- X2. -/
theorem test_decode_compose : decode [0x01058000, 0x00001234] = .ok (.compose ⟨5, true, 0, 0⟩ 0x1234, []) := by decide

/-- 2.4. -/
theorem test_decode_sendFrame : decode [0x02008003, 0x00123405, 0x00030201, 0]
    = .ok (.sendFrame ⟨0, true, 0, 3⟩ 0x00123405 0x00030201 0, []) := by decide

/-- SR3, with the next command's word behind it. -/
theorem test_decode_sendRecord : decode [0x03030009, 0x10, 0xA3A2A1A0, 0xA7A6A5A4, 0xA8, 0x20000000]
    = .ok (.sendRecord ⟨3, false, 0, 9⟩ 0x10 [0xA3A2A1A0, 0xA7A6A5A4, 0xA8], [0x20000000]) := by decide

/-- 2.4. -/
theorem test_decode_sendQuery : decode [0x04050000, 0x00001234] = .ok (.sendQuery ⟨5, false, 0, 0⟩ 0x1234, []) := by decide

/-- F1. -/
theorem test_decode_register : decode [0x10000014, 0x00123405, 7] = .ok (.register (hLen 20) 0x00123405 7, []) := by decide

/-- F7. -/
theorem test_decode_registerMasked : decode [0x11000014, 0x001234FF, 0x1FFFFF00, 9]
    = .ok (.registerMasked (hLen 20) 0x001234FF 0x1FFFFF00 9, []) := by decide

/-- F14: an illegal command of a known opcode, its reserved field kept. -/
theorem test_decode_remove : decode [0x12010000, 0x00123405] = .ok (.remove ⟨1, false, 0, 0⟩ 0x00123405, []) := by decide

/-- F15. -/
theorem test_decode_removeMasked : decode [0x13000000, 0x00123456, 0x1FFFFF00]
    = .ok (.removeMasked h0 0x00123456 0x1FFFFF00, []) := by decide

/-- R130's example. -/
theorem test_decode_open : decode [0x20000000] = .ok (.openChannel h0, []) := by decide

/-- R131's example. -/
theorem test_decode_close : decode [0x21000000, 0x01050000] = .ok (.closeChannel h0, [0x01050000]) := by decide

theorem test_decode_rejects : decode [] = .error .noWord ∧ decode [0x01050000] = .error .incomplete ∧
    decode [0x00000000, 0x01050000] = .error (.unknownOpcode 0) ∧ decode [0x14000000] = .error (.unknownOpcode 0x14) := by decide

theorem test_decodeTableWord : decodeTableWord 32 0x03000005 = some (.sendRecord (hLen 5) 0 [0, 0]) ∧
    decodeTableWord 32 0xFF000000 = none := by decide

/-! ### One step of CMD per command -/

/-- 2.1. -/
theorem test_compose_key : respWords (afterWords [0x01FF8000, 0x001FFFFF] State.reset) = some [0, 0x5FFFFFFF] := by decide

/-- 2.1: base word bit 21. -/
theorem test_compose_illegal : respWords (afterWords [0x01050000, 0x00200000] State.reset) = some [0x10000000] := by decide

/-- 2.4: junk bytes past `size` are sent as 0. -/
theorem test_sendFrame_offers : (afterWords [0x02000002, 0x00000105, 0xCCDDBBAA, 0x11223344] State.reset).txLog
    = [dataFrame 0x105 2 #v[0xAA, 0xBB, 0, 0, 0, 0, 0, 0]] := by decide

/-- 2.4: the answer FAIL(0x7777). -/
theorem test_sendFrame_fails : respWords (stateOf (cmdMove
    ((afterWords [0x02000008, 0x00000105, 0x03020100, 0x07060504] State.reset).withAnswer (some (.fail 0x7777)))))
    = some [0x04007777] := by decide

/-- X1: the first segment. -/
theorem test_sendRecord_offers : (afterWords ([0x03050014, 0x00001234] ++ rec20Words) State.reset).txLog = [seg0] := by decide

/-- SR6: OK, then FAIL(2) on segment 1. -/
theorem test_sendRecord_fails :
    let t := answerAll [.ok, .fail 2] (afterWords ([0x03050014, 0x00001234] ++ rec20Words) State.reset)
    t.txLog = [seg0, seg1] ∧ respWords t = some [0x04010002] ∧ t.cmd = .idle := by decide

/-- 2.4. -/
theorem test_sendQuery_offers : (afterWords [0x04050000, 0x00001234] State.reset).txLog
    = [{ dataFrame 0x00123405 0 #v[0, 0, 0, 0, 0, 0, 0, 0] with rtr := true }] := by decide

/-- 2.4: header RTR. -/
theorem test_sendQuery_illegal : respWords (afterWords [0x04058000, 0x00001234] State.reset) = some [0x10000000] := by decide

/-- F1; the key order of the list is the model's (log entry 8). -/
theorem test_register_adds : (afterWords [0x10000005, 0x000ABC02, 0x11] rx).exact
    = [⟨0x105, 0, 0xE1⟩, ⟨0x205, 5, 0x11⟩, ⟨0x000ABC02, 5, 0x11⟩, ⟨0x00123405, 20, 7⟩] := by decide

/-- F2. -/
theorem test_register_exists : respWords (afterWords [0x10000000, 0x00123405, 8] rx) = some [0x11000000] := by decide

/-- F7: the base is stored normalised. -/
theorem test_registerMasked_adds : (afterWords [0x11000014, 0x001234FF, 0x1FFFFF00, 9] State.reset).masked
    = [⟨0x00123400, 0x1FFFFF00, 20, 9⟩] := by decide

/-- F8: the same pair. -/
theorem test_registerMasked_exists : respWords (afterWords [0x11000000, 0x001234AB, 0x1FFFFF00, 10] rxPartial)
    = some [0x11000000] := by decide

/-- F13. -/
theorem test_remove_removes : (afterWords [0x12000000, 0x00000205] rx).exact = [⟨0x105, 0, 0xE1⟩, ⟨0x00123405, 20, 7⟩] := by decide

/-- F12: an absent key. -/
theorem test_remove_absent : respWords (afterWords [0x12000000, 0x00999999] rx) = some [0] := by decide

/-- F15. -/
theorem test_removeMasked_removes : (afterWords [0x13000000, 0x00123456, 0x1FFFFF00] rxPartial).masked = [] := by decide

/-- F11's reserved mask bit. -/
theorem test_removeMasked_illegal : respWords (afterWords [0x13000000, 0, 0x20000000] rxPartial) = some [0x10000000] := by decide

/-- P1, step 1. -/
theorem test_open_offers : (afterWords [0x20000000] State.reset).ctlLog = [.openChannel] := by decide

/-- R131's example: CLOSE, answered FAIL(3). -/
theorem test_close_fails : respWords (stateOf (cmdMove
    ((afterWords [0x21000000] State.reset).withAnswer (some (.fail 3))))) = some [0x04000003] := by decide

/-- R69 (a): one word taken, the rest left. -/
theorem test_unknown_opcode : respWords (afterWords [0x05000000, 0x20000000] State.reset) = some [0x10000000] ∧
    (afterWords [0x05000000, 0x20000000] State.reset).cmdPort = [0x20000000] := by decide

/-! ### Single steps of RXE -/

/-- X4, reverse order: the context after segment 2. -/
theorem test_rx_partial : (receive seg2 rx).ctx = [⟨0x00123405, 20, [false, false, true],
    [0, 0, 0, 0, 0, 0, 0, 0, 0, 0, 0, 0, 0, 0, 0x0E, 0x0F, 0x10, 0x11, 0x12, 0x13]⟩] := by decide

/-- X4: the RECORD event. -/
theorem test_rx_record : outWords (receiveAll [seg2, seg0, seg1] rx) = [[0x81000007, 0x00123405, 0x14] ++ rec20Words] := by
  decide

/-- X6: index 3 frees the context. -/
theorem test_rx_bad_index :
    let t := receive (dataFrame 0x00123405 8 #v[0x03, 0xFF, 0xFF, 0xFF, 0xFF, 0xFF, 0xFF, 0xFF]) (receiveAll [seg0, seg1] rx)
    outWords t = [[0x82020007, 0x00123405, 0x00030008]] ∧ t.ctx = [] := by decide

/-- X7: raw delivery, by the exact entry. -/
theorem test_rx_raw : outWords (receive (dataFrame 0x105 2 #v[0x11, 0x22, 0x33, 0, 0, 0, 0, 0]) rx)
    = [[0x800000E1, 0x105, 2, 0x2211, 0]] := by decide

/-- X3 and 2.6: a single-frame record, and its frame one byte short. -/
theorem test_rx_single :
    outWords (receive (dataFrame 0x205 5 #v[0xDE, 0xAD, 0xBE, 0xEF, 0x42, 0xEE, 0, 0]) rx)
      = [[0x81000011, 0x205, 5, 0xEFBEADDE, 0x42]] ∧
    outWords (receive (dataFrame 0x205 4 #v[0xDE, 0xAD, 0xBE, 0xEF, 0, 0, 0, 0]) rx) = [[0x82010011, 0x205, 4]] := by decide

/-! ### The host's interface -/

/-- R126: a second command finds no room, and two at once or half of one are no command. -/
theorem test_issue :
    (hostMove (.issue [0x12000000, 0x205]) State.reset).cmdPort = [0x12000000, 0x205] ∧
    (hostMove (.issue [0x21000000]) (State.reset.withCmdPort [0x20000000])).cmdPort = [0x20000000] ∧
    (hostMove (.issue [0x20000000, 0x21000000]) State.reset).cmdPort = [] ∧
    (hostMove (.issue [0x12000000]) State.reset).cmdPort = [] := by decide

theorem test_withFetchWord : respWords (stateOf (step (State.reset.withFetchWord 32 0x01050000))) = some [0, 5] ∧
    step (State.reset.withFetchWord 32 0x20000000) = .next (stateOf (step (State.reset.withFetchWord 32 0x20000000))) :=
  ⟨by decide, rfl⟩

/-! ### Witnesses: a concrete input that meets all hypotheses of each obligation that has any, for each of its clauses -/

/-- A command waits on the transport, and a frame waits on the RX port. -/
def waiting : State := ((afterWords ([0x03050014, 0x00001234] ++ rec20Words) rx).withRxPort (some seg1))

/-- The waiting command. -/
theorem waiting_cmd : waiting.cmd = .txWait .sendRecord 0x00123405 20 3 0 (bytesOf rec20Words 20) seg0 := by decide

/-- A response waits. -/
def answered : State := afterWords [0x01050000, 0x00001234] rxPartial

/-- An event waits, and `OUTQ` is full. -/
def full : State :=
  { rx with params := ⟨4, 4, 1, 1⟩, outq := [.rxError 7 0x00123405 .invalidIndex 8 3], rxPort := some seg0 }

/-- Bit 0 of X1's record has come, and `CTX` holds no second context. -/
def oneContext : State := { rxPartial with params := ⟨4, 4, 1, 1⟩ }

theorem witness_ResetWithdrawsTheOffer :
    waiting.busy = true ∧ waiting.rxPort = some seg1 ∧ waiting.params.wf = true := by decide

theorem witness_ResetMeetsTheInvariant : Params.vectors.wf = true ∧ (⟨1, 1, 1, 1⟩ : Params).wf = true := by decide

theorem witness_EveryStepKeepsTheInvariant :
    ({ waiting with script := [.rxe], ctx := rxPartial.ctx } : State).wf = true ∧
    step { waiting with script := [.rxe], ctx := rxPartial.ctx }
      = .next (stateOf (step { waiting with script := [.rxe], ctx := rxPartial.ctx })) := ⟨by decide, rfl⟩

theorem witness_NoStepChangesTheCapacities :
    step (State.reset.offering [0x20000000]) = .next (afterWords [0x20000000] State.reset) := rfl

theorem witness_DecodeOfEncode :
    (Instr.sendRecord (hLen 9) 0x10 [1, 2, 3]).shaped = true ∧ (Instr.compose ⟨5, true, 0xF, 0x7FF⟩ 0xFFFFFFFF).shaped = true := by
  decide

theorem witness_EncodeOfDecode :
    decode [0x03000001, 0x10, 0x5A, 7] = .ok (.sendRecord (hLen 1) 0x10 [0x5A], [7]) := by decide

theorem witness_UnknownOpcodeTakesOneWord :
    let s := State.reset.withCmdPort [0x05000000, 0x20000000]
    s.commandReady = true ∧ s.cmdPort = 0x05000000 :: [0x20000000] ∧
    (opcField 0x05000000).toNat ∉ [0x01, 0x02, 0x03, 0x04, 0x10, 0x11, 0x12, 0x13, 0x20, 0x21] := by decide

/-- Exactly a whole command, and one word short of it. -/
theorem witness_TakingACommandConsumesItsWords :
    (State.reset.withCmdPort [0x12000000, 5]).commandReady = true ∧ commandWords 0x12000000 ≤ [0x12000000, 5].length ∧
    [0x12000000].length < commandWords 0x12000000 := by decide

theorem witness_StepRunsTheDecodedCommand :
    let s := rx.offering [0x12000000, 0x205]
    s.script = .cmd :: [] ∧ s.commandReady = true ∧ decode s.cmdPort = .ok (.remove h0 0x205, []) := by decide

theorem witness_HoldsAndIdlenessKeepTheState :
    waiting.cmdHolds = true ∧ full.rxeHolds = true ∧ (answered.cmd = .idle ∧ answered.rxPort = none ∧ answered.cmdPort = []) ∧
    answered.commandReady = false := by decide

/-- A whole command and a free port; an untaken command, a truncated one and two at once; a free and a full RX port; an offer
not answered, one answered, and no offer. -/
theorem witness_PortsCarryOneThingAtATime :
    (rx.cmdPort = [] ∧ [0x12000000, 0x205].length = commandWords 0x12000000) ∧
    ((rx.withCmdPort [0x20000000]).cmdPort ≠ [] ∧ [0x12000000].length ≠ commandWords 0x12000000 ∧
      [0x20000000, 0x21000000].length ≠ commandWords 0x20000000) ∧
    ((rx.withCmdPort [0x20000000]).commandReady = true ∧ [0x20000000].length = commandWords 0x20000000) ∧
    (rx.rxPort = none ∧ waiting.rxPort ≠ none) ∧
    (waiting.cmd ≠ .idle ∧ waiting.answer = none ∧ (waiting.withAnswer (some .ok)).answer ≠ none ∧ rx.cmd = .idle) := by decide

theorem witness_ReadingTheResponse :
    answered.resp = some { status := .ok, segIdx := 0, tcode := 0, key := some 0x00123405 } ∧ answered.cmd = .idle := by decide

theorem witness_PoppingAnEvent :
    full.outq = .rxError 7 0x00123405 .invalidIndex 8 3 :: [] ∧ full.outq.length ≤ full.params.outqDepth := by decide

theorem witness_PackedBytesSitInTheirLanes :
    4 < ([1, 2, 3, 4, 5] : List Byte).length ∧ ([1, 2, 3, 4, 5] : List Byte).length ≤ 5 := by decide

theorem witness_DecompositionInvertsComposition : keyReserved 0x5FFFFFFF = false := by decide

theorem witness_MatchPredicates :
    (⟨0x00123400, 0x1FFFFF00, 20, 9⟩ : MaskedEntry).wf = true ∧ (⟨0x105, 0, 0⟩ : ExactEntry).hits (keyOf false 0x105) = true := by
  decide

/-- The exact entry, the second masked entry, and no entry. -/
theorem witness_SelectionOrder :
    let m : List MaskedEntry := [⟨0x00000A00, 0x1FFFFF00, 0, 1⟩, ⟨0x00123400, 0x1FFFFF00, 20, 9⟩, ⟨0x00123405, 0x1FFFFFFF, 0, 2⟩]
    exactWf Params.vectors rx.exact = true ∧ maskedWf Params.vectors m = true ∧
    (∃ e ∈ rx.exact, e.key = 0x00123405) ∧
    (∀ e ∈ rx.exact, e.key ≠ 0x00123406) ∧ (0x00123406 : Word) &&& 0x1FFFFF00 = 0x00123400 ∧
    (0x00123406 : Word) &&& 0x1FFFFF00 ≠ 0x00000A00 ∧
    (∀ e ∈ rx.exact, e.key ≠ 0x1) ∧ (∀ e ∈ m, (0x1 : Word) &&& e.mask ≠ e.base) := by decide

/-- The greatest legal base word, and the least illegal one. -/
theorem witness_ComposeCommand :
    opcField 0x01FF8000 = 0x01 ∧ (headerBits 0x01FF8000).rsv = 0 ∧ (headerBits 0x01FF8000).len = 0 ∧
    (0x1FFFFF : Word).toNat < 2 ^ 21 ∧ 2 ^ 21 ≤ (0x200000 : Word).toNat := by decide

theorem witness_SegmentCount :
    (1 ≤ 1 ∧ 1 ≤ 1792 ∧ 1 ≤ 8) ∧ (1 ≤ 9 ∧ 8 < 9) ∧ (1785 ≤ 1792 ∧ 1786 ≤ 1786) ∧ (1786 ≤ 1792 ∧ 1 ≤ 1792) := by decide

/-- The least and the greatest multi-segment record: a full first segment, the last one, and a byte of each. -/
theorem witness_SegmentsTileTheRecord :
    (8 < 9 ∧ 9 ≤ 1792 ∧ 0 + 1 < nseg 9 ∧ 1 < nseg 9 ∧ 8 < 9) ∧ (8 < 1792 ∧ 254 + 1 < nseg 1792 ∧ 255 < nseg 1792) := by decide

theorem witness_SingleFrameLayout :
    (1 ≤ 1 ∧ 1 ≤ 8 ∧ ([0x5A] : List Byte).length = 1) ∧
    (1 ≤ 8 ∧ 8 ≤ 8 ∧ ([0, 1, 2, 3, 4, 5, 6, 7] : List Byte).length = 8 ∧ 7 < 8) := by decide

theorem witness_SegmentFrameLayout :
    (8 < 20 ∧ 20 ≤ 1792 ∧ (bytesOf rec20Words 20).length = 20 ∧ 2 < nseg 20 ∧ 5 < segLen 20 2 ∧ segLen 20 2 + 1 ≤ 7) ∧
    255 < nseg 1792 := by decide

theorem witness_EverySentFrameIsExtended :
    step (rx.offering [0x02000000, 0x105, 0, 0]) = .next (afterWords [0x02000000, 0x105, 0, 0] rx) := rfl

/-- `LEN` 1 and 1792 are legal, 0 and 1793 are not; the lengths of the data for the first and the last. -/
theorem witness_SendRecordCommand :
    opcField 0x03030001 = 0x03 ∧ ([0x5A] : List Word).length = ((headerBits 0x03030001).len.toNat + 3) / 4 ∧
    (headerBits 0x03030001).rtr = false ∧ (headerBits 0x03030001).rsv = 0 ∧ 1 ≤ (headerBits 0x03030001).len.toNat ∧
    (headerBits 0x03020700).len.toNat = 1792 ∧ (0x1FFFFF : Word).toNat < 2 ^ 21 ∧
    ([] : List Word).length = ((headerBits 0x03000000).len.toNat + 3) / 4 ∧ (headerBits 0x03000000).len.toNat = 0 ∧
    1792 < (headerBits 0x03030701).len.toNat := by decide

/-- A failure, an answer to an earlier segment, and an answer to the last one. -/
theorem witness_SendRecordAnswers :
    (let s := waiting.withAnswer (some (.fail 2))
     s.cmd = .txWait .sendRecord 0x00123405 20 3 0 (bytesOf rec20Words 20) seg0 ∧ s.resp = none ∧ s.answer = some (.fail 2)) ∧
    (let s := waiting.withAnswer (some .ok)
     s.cmd = .txWait .sendRecord 0x00123405 20 3 0 (bytesOf rec20Words 20) seg0 ∧ s.resp = none ∧ s.answer = some .ok ∧ 0 + 1 ≠ 3) ∧
    (let s := (answerAll [.ok, .ok] waiting).withAnswer (some .ok)
     s.cmd = .txWait .sendRecord 0x00123405 20 3 2 (bytesOf rec20Words 20) seg2 ∧ s.resp = none ∧ s.answer = some .ok ∧ 2 + 1 = 3) := by
  decide

theorem witness_SendRecordSendsEverySegmentInOrder :
    (Instr.sendRecord ⟨5, false, 0, 20⟩ 0x1234 rec20Words).wellFormed = true := by decide

/-- The first and the last segment fails. -/
theorem witness_SendRecordStopsAtTheFirstFailure :
    (Instr.sendRecord ⟨5, false, 0, 20⟩ 0x1234 rec20Words).wellFormed = true ∧ 0 < nseg 20 ∧ 2 < nseg 20 := by decide

/-- A command that waits for SEND_QUERY's answer, and one that waits for SEND_FRAME's. -/
theorem witness_SendQueryCommand :
    opcField 0x04050000 = 0x04 ∧ headerBits 0x04050000 = ⟨5, false, 0, 0⟩ ∧ (0x1FFFFF : Word).toNat < 2 ^ 21 ∧
    (headerBits 0x04058000).rtr = true ∧
    (let s := (afterWords [0x04050000, 0x1234] rx).withAnswer (some (.fail 1))
     s.cmd = .txWait .sendQuery 0 0 0 0 [] (queryFrame 0x00123405) ∧ s.resp = none ∧ s.answer = some (.fail 1)) := by decide

theorem witness_SendFrameCommand :
    opcField 0x02000008 = 0x02 ∧ headerBits 0x02000008 = hLen 8 ∧ (0x1FFFFFFF : Word).toNat < 2 ^ 29 ∧
    2 ^ 29 ≤ (0x20000000 : Word).toNat ∧ 8 < (headerBits 0x02000009).len.toNat ∧
    (let s := (afterWords [0x02000000, 0x105, 0, 0] rx).withAnswer (some .ok)
     s.cmd = .txWait .sendFrame 0 0 0 0 [] (dataFrame 0x105 0 #v[0, 0, 0, 0, 0, 0, 0, 0]) ∧ s.resp = none ∧ s.answer = some .ok) := by
  decide

/-- An illegal length, a known key, a full table, and room for a new key. -/
theorem witness_RegisterCommand :
    opcField 0x10000700 = 0x10 ∧ (headerBits 0x10000700).len.toNat = 1792 ∧ (headerBits 0x10000701).len.toNat = 1793 ∧
    (h0.node = 0 ∧ h0.rtr = false ∧ h0.rsv = 0 ∧ h0.len.toNat ≤ 1792 ∧ keyReserved 0x205 = false ∧ (0xFFFF : Word).toNat < 2 ^ 16) ∧
    (∃ e ∈ rx.exact, e.key = 0x205) ∧ (∀ e ∈ rx.exact, e.key ≠ 0x206) ∧ rx.exact.length < rx.params.nexact ∧
    (let s : State := { rx with params := ⟨3, 1, 1, 1⟩ }
     (∀ e ∈ s.exact, e.key ≠ 0x206) ∧ s.exact.length = s.params.nexact) := by decide

/-- The same for a pair `(base, mask)`. -/
theorem witness_RegisterMaskedCommand :
    opcField 0x11000000 = 0x11 ∧ keyReserved 0x20000000 = true ∧
    (h0.node = 0 ∧ h0.rtr = false ∧ h0.rsv = 0 ∧ h0.len.toNat ≤ 1792 ∧ keyReserved 0x001234FF = false ∧
      keyReserved 0x1FFFFF00 = false ∧ (9 : Word).toNat < 2 ^ 16) ∧
    (∃ e ∈ rxPartial.masked, e.mask = 0x1FFFFF00 ∧ e.base = 0x001234FF &&& 0x1FFFFF00) ∧
    (¬ ∃ e ∈ rxPartial.masked, e.mask = 0xFF ∧ e.base = 5 &&& 0xFF) ∧ rxPartial.masked.length < rxPartial.params.nmasked ∧
    (let s : State := { rxPartial with params := ⟨4, 1, 4, 1⟩ }
     s.masked.length = s.params.nmasked) := by decide

theorem witness_RemoveCommand :
    opcField 0x12000000 = 0x12 ∧ headerBits 0x12000000 = h0 ∧ keyReserved 0x205 = false ∧ (headerBits 0x12010000).node ≠ 0 := by
  decide

theorem witness_RemoveMaskedCommand :
    opcField 0x13000000 = 0x13 ∧ headerBits 0x13000000 = h0 ∧ keyReserved 0x001234FF = false ∧ keyReserved 0x1FFFFF00 = false ∧
    keyReserved 0x20000000 = true := by decide

theorem witness_ChannelCommands :
    opcField 0x20000000 = 0x20 ∧ opcField 0x21000000 = 0x21 ∧ headerBits 0x20000000 = h0 ∧ (headerBits 0x20000001).len ≠ 0 ∧
    (let s := (afterWords [0x21000000] rx).withAnswer (some (.fail 3))
     s.cmd = .ctlWait .closeChannel ∧ s.resp = none ∧ s.answer = some (.fail 3)) := by decide

theorem witness_OnlyTheReceiveEngineTouchesContexts :
    (Move.cmd ≠ .rxe ∧ Move.cmd ≠ .host .assertReset ∧
      move .cmd (rxPartial.withCmdPort [0x12000000, 0x205]) = .next (stateOf (move .cmd (rxPartial.withCmdPort [0x12000000, 0x205])))) ∧
    exec (.remove h0 0x205) rxPartial = .next (stateOf (exec (.remove h0 0x205) rxPartial)) := by
  refine ⟨⟨by decide, by decide, rfl⟩, rfl⟩

theorem witness_OnlyTheReceiveEngineAppendsEvents :
    move .cmd full = .next (stateOf (move .cmd full)) ∧ move (.host .popEvent) full = .next (stateOf (move (.host .popEvent) full)) ∧
    move .rxe waiting = .next (stateOf (move .rxe waiting)) := ⟨rfl, rfl, rfl⟩

/-- Room for one event, and none. -/
theorem witness_ReceiveEngineTakesOneFrame :
    (waiting.rxPort = some seg1 ∧ waiting.outq.length < waiting.params.outqDepth) ∧
    (full.rxPort = some seg0 ∧ full.params.outqDepth ≤ full.outq.length ∧
      full.outq = .rxError 7 0x00123405 .invalidIndex 8 3 :: [] ∧ full.outq.length = full.params.outqDepth) := by decide

theorem witness_DroppedFramesChangeNothing :
    ({ seg0 with ext := false } : Frame).ext = false ∧ 8 < ({ seg0 with size := 9 } : Frame).size.toNat ∧
    select rx.exact rx.masked ({ seg0 with id := 0xA03 } : Frame).key = none := by decide

/-- A raw entry, and a remote request under a record's entry. -/
theorem witness_RawDelivery :
    (let f := dataFrame 0x105 8 #v[0xF0, 0xF1, 0xF2, 0xF3, 0xF4, 0xF5, 0xF6, 0xF7]
     f.ext = true ∧ f.size.toNat ≤ 8 ∧ select rx.exact rx.masked f.key = some ⟨0, 0xE1⟩) ∧
    (let f := { seg0 with rtr := true, size := 0 }
     f.ext = true ∧ f.size.toNat ≤ 8 ∧ f.rtr = true ∧ select [⟨0x40123405, 20, 7⟩] [] f.key = some ⟨20, 7⟩) := by decide

theorem witness_SingleFrameRecord :
    (let f := dataFrame 0x205 5 #v[1, 2, 3, 4, 5, 0, 0, 0]
     f.ext = true ∧ f.size.toNat ≤ 8 ∧ f.rtr = false ∧ select rx.exact rx.masked f.key = some ⟨5, 0x11⟩ ∧ f.size.toNat = (5 : Len).toNat) ∧
    (dataFrame 0x205 4 #v[1, 2, 3, 4, 0, 0, 0, 0]).size.toNat ≠ (5 : Len).toNat ∧ 1 ≤ (5 : Len).toNat ∧ (5 : Len).toNat ≤ 8 := by decide

theorem witness_MissingIndex :
    let f := { seg0 with size := 0 }
    f.ext = true ∧ f.rtr = false ∧ f.size = 0 ∧ select rx.exact rx.masked f.key = some ⟨20, 7⟩ ∧ 8 < (20 : Len).toNat := by decide

/-- The least out-of-range index, with a context and without one. -/
theorem witness_OutOfRangeIndex :
    let f := dataFrame 0x00123405 1 #v[3, 0, 0, 0, 0, 0, 0, 0]
    f.ext = true ∧ f.rtr = false ∧ 1 ≤ f.size.toNat ∧ f.size.toNat ≤ 8 ∧ select rxPartial.exact rxPartial.masked f.key = some ⟨20, 7⟩ ∧
    select rx.exact rx.masked f.key = some ⟨20, 7⟩ ∧ 8 < (20 : Len).toNat ∧ nseg (20 : Len).toNat ≤ (f.byte 0).toNat ∧
    Memory.find rx.ctx f.id = none ∧ (Memory.find rxPartial.ctx f.id).isSome = true := by decide

/-- Node 6's first segment while node 5's context holds the only slot. -/
theorem witness_NoFreeContext :
    let f := { seg0 with id := 0x00123406 }
    f.ext = true ∧ f.rtr = false ∧ 1 ≤ f.size.toNat ∧ f.size.toNat ≤ 8 ∧
    select oneContext.exact oneContext.masked f.key = some ⟨20, 9⟩ ∧ 8 < (20 : Len).toNat ∧ (f.byte 0).toNat < nseg (20 : Len).toNat ∧
    Memory.find oneContext.ctx f.id = none ∧ oneContext.ctx.length = oneContext.params.nctx := by decide

/-- A second segment into the only context, and a short one into a new context. -/
theorem witness_SegmentWritesItsBytesAndItsBit :
    (seg1.ext = true ∧ seg1.rtr = false ∧ 1 ≤ seg1.size.toNat ∧ seg1.size.toNat ≤ 8 ∧ oneContext.wf = true ∧
      select oneContext.exact oneContext.masked seg1.key = some ⟨20, 7⟩ ∧ 8 < (20 : Len).toNat ∧
      (seg1.byte 0).toNat < nseg (20 : Len).toNat ∧
      Memory.find (Memory.dropOtherSize oneContext.ctx seg1.id 20) seg1.id ≠ none ∧
      (2 < nseg (20 : Len).toNat ∧ 2 ≠ (seg1.byte 0).toNat ∧
        Memory.readBit (Memory.dropOtherSize oneContext.ctx seg1.id 20) seg1.id 2 = false)) ∧
    (let f := dataFrame 0x00123405 1 #v[2, 0, 0, 0, 0, 0, 0, 0]
     rx.wf = true ∧ 1 ≤ f.size.toNat ∧ select rx.exact rx.masked f.key = some ⟨20, 7⟩ ∧ (f.byte 0).toNat < nseg (20 : Len).toNat ∧
     (Memory.dropOtherSize rx.ctx f.id 20).length < rx.params.nctx ∧
     (0 < nseg (20 : Len).toNat ∧ 0 ≠ (f.byte 0).toNat ∧ Memory.readBit (Memory.dropOtherSize rx.ctx f.id 20) f.id 0 = false)) := by
  decide

theorem witness_CompletionDeliversTheRecord :
    let s := receiveAll [seg0, seg1] rx
    s.wf = true ∧ seg2.ext = true ∧ seg2.rtr = false ∧ 1 ≤ seg2.size.toNat ∧ seg2.size.toNat ≤ 8 ∧
    select s.exact s.masked seg2.key = some ⟨20, 7⟩ ∧ 8 < (20 : Len).toNat ∧
    (Memory.find s.ctx seg2.id).map Context.size = some 20 ∧ (seg2.byte 0).toNat < nseg (20 : Len).toNat ∧
    (∀ j, j < nseg (20 : Len).toNat → j ≠ (seg2.byte 0).toNat → Memory.readBit s.ctx seg2.id j = true) := by decide

theorem witness_OtherIdentifiersAreUntouched : (0x00123406 : Ident) ≠ seg0.id := by decide

theorem witness_RedeliveryIsIdempotent :
    rxPartial.wf = true ∧ seg1.ext = true ∧ seg1.rtr = false ∧ seg1.size.toNat ≤ 8 ∧
    select rxPartial.exact rxPartial.masked seg1.key = some ⟨20, 7⟩ ∧ 8 < (20 : Len).toNat ∧
    (receive seg1 rxPartial).outq = rxPartial.outq := by decide

theorem witness_SingleFrameRoundTrip :
    1 ≤ (5 : Len).toNat ∧ (5 : Len).toNat ≤ 8 ∧ ([0xDE, 0xAD, 0xBE, 0xEF, 0x42] : List Byte).length = (5 : Len).toNat ∧
    select rx.exact rx.masked (keyOf false 0x205) = some ⟨5, 0x11⟩ := by decide

theorem witness_ReassemblyInAnyOrder :
    rx.wf = true ∧ 8 < (20 : Len).toNat ∧ (20 : Len).toNat ≤ 1792 ∧ (bytesOf rec20Words 20).length = (20 : Len).toNat ∧
    select rx.exact rx.masked (keyOf false 0x00123405) = some ⟨20, 7⟩ ∧ Memory.find rx.ctx 0x00123405 = none ∧
    rx.ctx.length < rx.params.nctx ∧ [2, 0, 1].Perm (List.range (nseg (20 : Len).toNat)) := by decide

end Sys2Proof.Tests
end

section
/-! PROOFS. Scope and reset: every piece of state is legal when it is empty, so the reset state is as legal as its
capacities are. -/

namespace Sys2Proof.Machine

/-! ### The empty pieces of the state meet their invariants -/

@[simp] theorem exactWf_nil (p : Params) : exactWf p [] = true := by
  simp [exactWf, risingBy]

@[simp] theorem maskedWf_nil (p : Params) : maskedWf p [] = true := by
  simp [maskedWf, pairsDistinct]

@[simp] theorem ctxWf_nil (p : Params) : ctxWf p [] = true := by
  simp [ctxWf, Memory.wf_nil]

@[simp] theorem outqWf_nil (p : Params) : outqWf p [] = true := by
  simp [outqWf]

@[simp] theorem portsWf_resetWith (p : Params) : portsWf (State.resetWith p) = true := rfl

/-! ### The reset state -/

/-- The test vectors' capacities are each at least 1 (R9 to R12). -/
theorem Params.vectors_wf : Params.vectors.wf = true := rfl

/-- R162: no piece of the reset state but the capacities can break the invariant. -/
theorem State.resetWith_wf (p : Params) : (State.resetWith p).wf = p.wf := by
  rw [State.wf, portsWf_resetWith, Bool.and_true]
  simp [State.resetWith, Cmd.wf]

/-- Settles O3: the reset state meets the invariant exactly when its capacities do. -/
theorem resetMeetsTheInvariant : Obligations.ResetMeetsTheInvariant := by
  refine ⟨?vectors, fun p hp => ?anyCapacities⟩
  case vectors => exact (State.resetWith_wf Params.vectors).trans Params.vectors_wf
  case anyCapacities => exact (State.resetWith_wf p).trans hp

end Sys2Proof.Machine
end

section
/-! PROOFS. Who writes what: CMD and the transport keep the capacities, the contexts and the events; the host reaches them by a
pop and by reset only; and every turn but RXE's and reset goes the same way whatever the contexts are. -/

namespace Sys2Proof.Machine

/-! ### Outcomes -/

/-- Every next state of an outcome meets `P`. -/
def Leaves (P : State → Prop) (r : Result) : Prop := ∀ t, r = .next t → P t

@[simp] theorem leaves_next {P : State → Prop} {s : State} : Leaves P (.next s) ↔ P s :=
  ⟨fun h => h s rfl, fun h _ ht => Host.Outcome.next.inj ht ▸ h⟩

/-- An outcome with its next state rewritten. -/
def mapNext (g : State → State) : Result → Result
  | .next s => .next (g s)
  | .fault r => .fault r
  | .refused r => .refused r

@[simp] theorem mapNext_next (g : State → State) (s : State) : mapNext g (.next s) = .next (g s) := rfl

/-! ### What CMD and the transport leave to RXE -/

/-- The capacities, the contexts and the events are the same. -/
structure SameReceiveSide (s t : State) : Prop where
  params : t.params = s.params
  ctx : t.ctx = s.ctx
  outq : t.outq = s.outq

theorem SameReceiveSide.refl (s : State) : SameReceiveSide s s := ⟨rfl, rfl, rfl⟩

theorem exec_sameReceiveSide (i : Instr) (s : State) : Leaves (SameReceiveSide s) (exec i s) := by
  rcases exec_shape i s with ⟨_, _, h⟩ | ⟨_, _, _, _, _, _, h⟩ | ⟨_, h⟩ | ⟨_, h⟩ | ⟨_, h⟩ <;>
    exact h ▸ leaves_next.2 ⟨rfl, rfl, rfl⟩

theorem takeAnswer_sameReceiveSide (a : TRes) (s : State) : SameReceiveSide s (takeAnswer a s) := by
  rcases takeAnswer_shape a s with ⟨_, h⟩ | ⟨_, h⟩ | ⟨_, _, _, _, _, _, _, _, _, h⟩ <;> rw [h]
  · exact .refl s
  · exact ⟨by simp, by simp, by simp⟩
  · exact ⟨rfl, rfl, rfl⟩

theorem takeCommand_sameReceiveSide (s : State) : Leaves (SameReceiveSide s) (takeCommand s) := by
  rcases takeCommand_shape s with h | h | ⟨i, rest, _, h⟩ <;> rw [h]
  · exact leaves_next.2 (.refl s)
  · exact leaves_next.2 ⟨rfl, rfl, rfl⟩
  · intro t ht
    obtain ⟨hp, hc, hq⟩ := exec_sameReceiveSide i _ t ht
    exact ⟨hp, hc, hq⟩

theorem cmdMove_sameReceiveSide (s : State) : Leaves (SameReceiveSide s) (cmdMove s) := by
  rcases cmdMove_shape s with h | ⟨_, a, _, h⟩ | ⟨_, _, h⟩ <;> rw [h]
  · exact leaves_next.2 (.refl s)
  · obtain ⟨hp, hc, hq⟩ := takeAnswer_sameReceiveSide a (s.withAnswer none)
    exact leaves_next.2 ⟨hp, hc, hq⟩
  · exact takeCommand_sameReceiveSide s

theorem transportMove_sameReceiveSide (a : TransportAct) (s : State) : SameReceiveSide s (transportMove a s) := by
  rcases transportMove_shape a s with h | ⟨_, _, _, _, h⟩ | ⟨_, _, _, h⟩ <;> rw [h] <;> exact ⟨rfl, rfl, rfl⟩

/-- The host's only moves that reach RXE's side are a pop and reset. -/
theorem hostMove_sameReceiveSide {a : HostAct} (s : State) (hp : a ≠ .popEvent) (hr : a ≠ .assertReset) :
    SameReceiveSide s (hostMove a s) := by
  rcases hostMove_shape a s with h | ⟨_, _, _, _, h⟩ | ⟨_, _, _, h⟩ | ⟨_, _, e, _⟩ | ⟨e, _⟩
  · rw [h]; exact .refl s
  · rw [h]; exact ⟨rfl, rfl, rfl⟩
  · rw [h]; exact ⟨rfl, rfl, rfl⟩
  · exact absurd e hp
  · exact absurd e hr

/-- What a pop does to every field (R135). -/
theorem hostMove_popEvent_cons {s : State} {e : Event} {es : List Event} (h : s.outq = e :: es) :
    hostMove .popEvent s = (s.withOutq es).withEventLog (s.eventLog ++ [e.words]) := by
  simp only [hostMove, h]

theorem hostMove_popEvent_nil {s : State} (h : s.outq = []) : hostMove .popEvent s = s := by
  simp only [hostMove, h]

theorem hostMove_popEvent_outq (s : State) : (hostMove .popEvent s).outq = s.outq.tail := by
  cases h : s.outq with
  | nil => rw [hostMove_popEvent_nil h, h]; rfl
  | cons e es => rw [hostMove_popEvent_cons h]; rfl

theorem hostMove_popEvent_ctx (s : State) : (hostMove .popEvent s).ctx = s.ctx := by
  cases h : s.outq with
  | nil => rw [hostMove_popEvent_nil h]
  | cons e es => rw [hostMove_popEvent_cons h]; rfl

/-! ### RXE's turn -/

theorem rxeMove_shape (s : State) :
    rxeMove s = s ∨ (s.rxeReady = true ∧ ∃ f, s.rxPort = some f ∧ rxeMove s = receive f (s.withRxPort none)) := by
  unfold rxeMove
  split
  · rename_i hr
    cases hf : s.rxPort with
    | none => exact .inl rfl
    | some f => exact .inr ⟨hr, f, rfl, rfl⟩
  · exact .inl rfl

theorem rxeMove_params (s : State) : (rxeMove s).params = s.params := by
  rcases rxeMove_shape s with h | ⟨_, f, _, h⟩ <;> rw [h]
  obtain ⟨m, h | ⟨e, h⟩⟩ := receive_shape f (s.withRxPort none) <;> rw [h] <;> rfl

theorem rxeMove_outq (s : State) : (rxeMove s).outq = s.outq ∨ ∃ e, (rxeMove s).outq = s.outq ++ [e] := by
  rcases rxeMove_shape s with h | ⟨_, f, _, h⟩ <;> rw [h]
  · exact .inl rfl
  · obtain ⟨m, h | ⟨e, h⟩⟩ := receive_shape f (s.withRxPort none) <;> rw [h]
    · exact .inl rfl
    · exact .inr ⟨e, rfl⟩

/-! ### The capacities -/

theorem hostMove_params (a : HostAct) (s : State) : (hostMove a s).params = s.params := by
  rcases hostMove_shape a s with h | ⟨_, _, _, _, h⟩ | ⟨_, _, _, h⟩ | ⟨_, _, _, _, h⟩ | ⟨_, h⟩ <;> rw [h] <;> rfl

theorem move_params (m : Move) (s : State) : Leaves (fun t => t.params = s.params) (move m s) := by
  cases m with
  | host a => exact leaves_next.2 (hostMove_params a s)
  | cmd => exact fun t ht => (cmdMove_sameReceiveSide s t ht).params
  | rxe => exact leaves_next.2 (rxeMove_params s)
  | transport a => exact leaves_next.2 (transportMove_sameReceiveSide a s).params

/-- Settles O5: the capacities are kept by each agent's turn. -/
theorem noStepChangesTheCapacities : Obligations.NoStepChangesTheCapacities := by
  intro s t ht
  cases hs : s.script with
  | nil => rw [step_nil hs] at ht; exact Host.Outcome.next.inj ht ▸ rfl
  | cons m ms => rw [step_cons hs] at ht; exact move_params m (s.withScript ms) t ht

/-- Settles O44: CMD, the transport and the host's other moves keep RXE's side, and RXE's turn emits at most once. -/
theorem onlyTheReceiveEngineAppendsEvents : Obligations.OnlyTheReceiveEngineAppendsEvents := by
  intro m s t ht
  refine ⟨fun hrxe hpop hreset => ?others, fun hm => ?pop, fun hm => ?rxe⟩
  case others =>
    cases m with
    | host a =>
      exact Host.Outcome.next.inj ht ▸
        (hostMove_sameReceiveSide s (fun e => hpop (e ▸ rfl)) (fun e => hreset (e ▸ rfl))).outq
    | cmd => exact (cmdMove_sameReceiveSide s t ht).outq
    | rxe => exact absurd rfl hrxe
    | transport a => exact Host.Outcome.next.inj ht ▸ (transportMove_sameReceiveSide a s).outq
  case pop =>
    subst hm
    exact Host.Outcome.next.inj ht ▸ hostMove_popEvent_outq s
  case rxe =>
    subst hm
    exact Host.Outcome.next.inj ht ▸ rxeMove_outq s

/-- Settles O18: a pop of a queue within its capacity leaves a free entry. -/
theorem poppingAnEvent : Obligations.PoppingAnEvent := by
  intro s e es hq
  refine ⟨_, congrArg Host.Outcome.next (hostMove_popEvent_cons hq), rfl, fun hlen => ?_⟩
  have : es.length < s.params.outqDepth := by simpa [hq] using hlen
  exact decide_eq_true this

/-! ### Replacing the contexts (R28) -/

/-- A first step tests nothing that lies in `CTX`, so replacing `CTX` commutes with each of its tests. -/
theorem exec_withCtx (i : Instr) (s : State) (c : Memory) :
    exec i (s.withCtx c) = mapNext (fun t => t.withCtx c) (exec i s) := by
  cases i with
  | compose h b => simp only [exec, execCompose, apply_ite (mapNext _)]; rfl
  | sendFrame h a b d => simp only [exec, execSendFrame, apply_ite (mapNext _)]; rfl
  | sendRecord h b d => simp only [exec, execSendRecord, apply_ite (mapNext _)]; rfl
  | sendQuery h b => simp only [exec, execSendQuery, apply_ite (mapNext _)]; rfl
  | register h k t => simp only [exec, execRegister, apply_ite (mapNext _)]; rfl
  | registerMasked h b m t => simp only [exec, execRegisterMasked, apply_ite (mapNext _)]; rfl
  | remove h k => simp only [exec, execRemove, apply_ite (mapNext _)]; rfl
  | removeMasked h b m => simp only [exec, execRemoveMasked, apply_ite (mapNext _)]; rfl
  | openChannel h => simp only [exec, execOpen, apply_ite (mapNext _)]; rfl
  | closeChannel h => simp only [exec, execClose, apply_ite (mapNext _)]; rfl

theorem finish_withCtx (i : Nat) (a : TRes) (s : State) (c : Memory) :
    finish i a (s.withCtx c) = (finish i a s).withCtx c := by cases a <;> rfl

theorem answerSendRecord_withCtx (id : Ident) (size : Len) (n i : Nat) (r : List Byte) (a : TRes) (s : State) (c : Memory) :
    answerSendRecord id size n i r a (s.withCtx c) = (answerSendRecord id size n i r a s).withCtx c := by
  unfold answerSendRecord
  split
  · rfl
  · exact finish_withCtx i a s c

theorem takeAnswer_withCtx (a : TRes) (s : State) (c : Memory) :
    takeAnswer a (s.withCtx c) = (takeAnswer a s).withCtx c := by
  unfold takeAnswer
  rw [State.withCtx_cmd]
  split
  · rfl
  · exact finish_withCtx 0 a s c
  · exact finish_withCtx 0 a s c
  · exact answerSendRecord_withCtx _ _ _ _ _ a s c
  · exact finish_withCtx 0 a s c
  · exact finish_withCtx 0 a s c

theorem takeCommand_withCtx (s : State) (c : Memory) :
    takeCommand (s.withCtx c) = mapNext (fun t => t.withCtx c) (takeCommand s) := by
  unfold takeCommand
  rw [State.withCtx_cmdPort]
  split
  · exact exec_withCtx _ (s.withCmdPort _) c
  · rfl
  · rfl
  · rfl

theorem cmdMove_withCtx (s : State) (c : Memory) :
    cmdMove (s.withCtx c) = mapNext (fun t => t.withCtx c) (cmdMove s) := by
  have hresp : (s.withCtx c).responseValid = s.responseValid := rfl
  have hbusy : (s.withCtx c).busy = s.busy := rfl
  unfold cmdMove
  rw [hresp, hbusy, State.withCtx_answer]
  split
  · rfl
  · split
    · split
      · rfl
      · exact congrArg _ (takeAnswer_withCtx _ (s.withAnswer none) c)
    · exact takeCommand_withCtx s c

theorem hostMove_withCtx {a : HostAct} (s : State) (c : Memory) (ha : a ≠ .assertReset) :
    hostMove a (s.withCtx c) = (hostMove a s).withCtx c := by
  cases a with
  | issue ws =>
    simp only [hostMove, apply_ite (fun t : State => t.withCtx c)]; rfl
  | readResponse =>
    cases h : s.resp with
    | none => simp only [hostMove, State.withCtx_resp, h]
    | some _ => simp only [hostMove, State.withCtx_resp, h]; rfl
  | popEvent =>
    cases h : s.outq with
    | nil => simp only [hostMove, State.withCtx_outq, h]
    | cons _ _ => simp only [hostMove, State.withCtx_outq, h]; rfl
  | assertReset => exact absurd rfl ha

theorem transportMove_withCtx (a : TransportAct) (s : State) (c : Memory) :
    transportMove a (s.withCtx c) = (transportMove a s).withCtx c := by
  cases a with
  | answer t => simp only [transportMove, apply_ite (fun t : State => t.withCtx c)]; rfl
  | answerWithdrawn t => rfl
  | offerFrame f =>
    cases h : s.rxPort with
    | none => simp only [transportMove, State.withCtx_rxPort, h]; rfl
    | some _ => simp only [transportMove, State.withCtx_rxPort, h]

theorem move_withCtx {m : Move} (s : State) (c : Memory) (hrxe : m ≠ .rxe) (hreset : m ≠ .host .assertReset) :
    move m (s.withCtx c) = mapNext (fun t => t.withCtx c) (move m s) := by
  cases m with
  | host a => exact congrArg _ (hostMove_withCtx s c fun e => hreset (e ▸ rfl))
  | cmd => exact cmdMove_withCtx s c
  | rxe => exact absurd rfl hrxe
  | transport a => exact congrArg _ (transportMove_withCtx a s c)

theorem hostMove_ctx {a : HostAct} (s : State) (ha : a ≠ .assertReset) : (hostMove a s).ctx = s.ctx := by
  by_cases hp : a = .popEvent
  · exact hp ▸ hostMove_popEvent_ctx s
  · exact (hostMove_sameReceiveSide s hp ha).ctx

theorem move_ctx {m : Move} (s : State) (hrxe : m ≠ .rxe) (hreset : m ≠ .host .assertReset) :
    Leaves (fun t => t.ctx = s.ctx) (move m s) := by
  cases m with
  | host a => exact leaves_next.2 (hostMove_ctx s fun e => hreset (e ▸ rfl))
  | cmd => exact fun t ht => (cmdMove_sameReceiveSide s t ht).ctx
  | rxe => exact absurd rfl hrxe
  | transport a => exact leaves_next.2 (transportMove_sameReceiveSide a s).ctx

/-- Settles O43: no other move writes `CTX`, and replacing `CTX` commutes with every other move and every first step. -/
theorem onlyTheReceiveEngineTouchesContexts : Obligations.OnlyTheReceiveEngineTouchesContexts := by
  refine ⟨fun m s t hrxe hreset ht => ⟨move_ctx s hrxe hreset t ht, fun c => ?move⟩,
    fun i s t ht => ⟨(exec_sameReceiveSide i s t ht).ctx, fun c => ?exec⟩⟩
  case move => exact (move_withCtx s c hrxe hreset).trans (congrArg (mapNext _) ht)
  case exec => exact (exec_withCtx i s c).trans (congrArg (mapNext _) ht)

end Sys2Proof.Machine
end

section
/-! PROOFS. The legal pieces a step is made of: the tables after a change, the frames and cursors CMD keeps, the responses and
events it and RXE write. -/

namespace Sys2Proof.Machine

/-! ### Key words -/

@[simp] theorem keyReserved_keyOf (rtr : Bool) (id : Ident) : keyReserved (keyOf rtr id) = false := by
  simp only [keyReserved, keyOf, BitVec.getLsbD_append]
  simp

@[simp] theorem Frame.keyReserved_key (f : Frame) : keyReserved f.key = false := keyReserved_keyOf f.rtr f.id

@[simp] theorem keyReserved_composeKey (b : BaseAddr) (n : NodeId) (rtr : Bool) :
    keyReserved (composeKey b n rtr) = false := keyReserved_keyOf rtr _

/-- A masked base keeps the reserved bits of the base clear (R25). -/
theorem keyReserved_and {b : Word} (m : Word) (h : keyReserved b = false) : keyReserved (b &&& m) = false := by
  obtain ⟨h31, h29⟩ := Bool.or_eq_false_iff.1 h
  simp only [keyReserved, BitVec.getLsbD_and, h31, h29, Bool.false_and, Bool.or_false]

/-! ### The filter tables -/

theorem exactWf_iff (p : Params) (l : List ExactEntry) :
    exactWf p l = true ↔
      risingBy (fun e : ExactEntry => e.key.toNat) l = true ∧ (∀ e ∈ l, e.wf = true) ∧ l.length ≤ p.nexact := by
  simp [exactWf, and_assoc]

theorem exactWf_putBy {p : Params} {l : List ExactEntry} {e : ExactEntry} (h : exactWf p l = true) (he : e.wf = true)
    (hroom : l.length < p.nexact) : exactWf p (putBy (fun e => e.key.toNat) e l) = true := by
  obtain ⟨hrise, hall, -⟩ := (exactWf_iff p l).1 h
  refine (exactWf_iff p _).2 ⟨risingBy_putBy e hrise, fun d hd => ?_, (length_putBy_le e l).trans hroom⟩
  rcases mem_of_mem_putBy hd with rfl | hd
  · exact he
  · exact hall d hd

theorem exactWf_filter {p : Params} {l : List ExactEntry} (q : ExactEntry → Bool) (h : exactWf p l = true) :
    exactWf p (l.filter q) = true := by
  obtain ⟨hrise, hall, hlen⟩ := (exactWf_iff p l).1 h
  exact (exactWf_iff p _).2
    ⟨risingBy_filter q hrise, fun d hd => hall d (List.mem_of_mem_filter hd), (List.length_filter_le q l).trans hlen⟩

/-- `pairsDistinct` as the library's pairwise relation (R24). -/
theorem pairsDistinct_iff_pairwise (l : List MaskedEntry) :
    pairsDistinct l = true ↔ l.Pairwise fun e d => ¬ (d.mask = e.mask ∧ d.base = e.base) := by
  induction l with
  | nil => simp [pairsDistinct]
  | cons e l ih => simp [pairsDistinct, ih, imp_iff_not_or]

theorem maskedWf_iff (p : Params) (l : List MaskedEntry) :
    maskedWf p l = true ↔
      (l.Pairwise fun e d => ¬ (d.mask = e.mask ∧ d.base = e.base)) ∧ (∀ e ∈ l, e.wf = true) ∧ l.length ≤ p.nmasked := by
  simp [maskedWf, pairsDistinct_iff_pairwise, and_assoc]

theorem maskedWf_append {p : Params} {l : List MaskedEntry} {e : MaskedEntry} (h : maskedWf p l = true) (he : e.wf = true)
    (hfresh : ∀ d ∈ l, ¬ (d.mask = e.mask ∧ d.base = e.base)) (hroom : l.length < p.nmasked) :
    maskedWf p (l ++ [e]) = true := by
  obtain ⟨hpair, hall, -⟩ := (maskedWf_iff p l).1 h
  refine (maskedWf_iff p _).2 ⟨List.pairwise_append.2 ⟨hpair, List.pairwise_singleton _ e, ?_⟩, ?_, by simpa using hroom⟩
  · intro d hd e' he'
    obtain rfl := List.mem_singleton.1 he'
    exact fun hc => hfresh d hd ⟨hc.1.symm, hc.2.symm⟩
  · intro d hd
    rcases List.mem_append.1 hd with hd | hd
    · exact hall d hd
    · exact List.mem_singleton.1 hd ▸ he

theorem maskedWf_filter {p : Params} {l : List MaskedEntry} (q : MaskedEntry → Bool) (h : maskedWf p l = true) :
    maskedWf p (l.filter q) = true := by
  obtain ⟨hpair, hall, hlen⟩ := (maskedWf_iff p l).1 h
  exact (maskedWf_iff p _).2
    ⟨hpair.filter q, fun d hd => hall d (List.mem_of_mem_filter hd), (List.length_filter_le q l).trans hlen⟩

/-- A selected entry of legal tables asks for at most `MAX_RECORD` bytes (R23, R25, R119). -/
theorem select_len_le {p : Params} {exact : List ExactEntry} {masked : List MaskedEntry} {k : Word} {t : Target}
    (he : exactWf p exact = true) (hm : maskedWf p masked = true) (h : select exact masked k = some t) :
    t.len.toNat ≤ maxRecord := by
  unfold select at h
  split at h
  · rename_i e hf
    have hwf := ((exactWf_iff p exact).1 he).2.1 e (List.mem_of_find?_eq_some hf)
    obtain rfl := Option.some.inj h
    simp only [ExactEntry.wf, Bool.and_eq_true, decide_eq_true_eq] at hwf
    exact hwf.2
  · split at h
    · rename_i e hf
      have hwf := ((maskedWf_iff p masked).1 hm).2.1 e (List.mem_of_find?_eq_some hf)
      obtain rfl := Option.some.inj h
      simp only [MaskedEntry.wf, Bool.and_eq_true, decide_eq_true_eq] at hwf
      exact hwf.2
    · cases h

/-! ### Frame data -/

theorem dataOf_getD (g : Nat → Byte) {k : Nat} (h : k < 8) : (dataOf g).toList.getD k 0 = g k := by
  interval_cases k <;> rfl

theorem dataOf_congr {g g' : Nat → Byte} (h : ∀ k, k < 8 → g k = g' k) : dataOf g = dataOf g' := by
  simp [dataOf, h]

/-- Masking data that is 0 at and past `size` changes nothing (R75). -/
theorem maskData_dataOf {size : BitVec 4} {g : Nat → Byte} (h : ∀ k, size.toNat ≤ k → g k = 0) :
    maskData size (dataOf g) = dataOf g := by
  refine dataOf_congr fun k hk => ?_
  rw [dataOf_getD g hk]
  split
  · rfl
  · exact (h k (by omega)).symm

theorem maskData_idem (size : BitVec 4) (d : Vector Byte 8) : maskData size (maskData size d) = maskData size d :=
  maskData_dataOf fun _ hk => if_neg (by omega)

theorem sentFrameOk_iff (f : Frame) :
    sentFrameOk f = true ↔ f.ext = true ∧ f.size.toNat ≤ 8 ∧ f.data = maskData f.size f.data := by
  simp [sentFrameOk, and_assoc]

theorem sentFrameOk_queryFrame (id : Ident) : sentFrameOk (queryFrame id) = true :=
  (sentFrameOk_iff _).2 ⟨rfl, Nat.zero_le 8, (maskData_dataOf fun _ _ => rfl).symm⟩

theorem sentFrameOk_rawFrame (rtr : Bool) (id : Ident) {size : Len} (w2 w3 : Word) (h : size.toNat ≤ 8) :
    sentFrameOk (rawFrame rtr id size w2 w3) = true := by
  have hsize : (size.setWidth 4).toNat = size.toNat := by
    rw [BitVec.toNat_setWidth]; exact Nat.mod_eq_of_lt (by omega)
  refine (sentFrameOk_iff _).2 ⟨rfl, hsize.trans_le h, Eq.symm ?_⟩
  refine maskData_dataOf fun k hk => if_neg ?_
  have : size.toNat ≤ k := hsize ▸ hk
  omega

/-! ### The segmenter's cursor (R29) -/

theorem nseg_pos (size : Nat) : 0 < nseg size := by
  unfold nseg
  split
  · exact Nat.one_pos
  · rename_i h
    simp only [singleMax, segPayload] at h ⊢
    omega

@[simp] theorem bytesOf_length (ws : List Word) (n : Nat) : (bytesOf ws n).length = n := by simp [bytesOf]

theorem Cmd.wf_sendRecord_iff (id : Ident) (size : Len) (n i : Nat) (r : List Byte) (f : Frame) :
    Cmd.wf (.txWait .sendRecord id size n i r f) = true ↔
      1 ≤ size.toNat ∧ size.toNat ≤ maxRecord ∧ n = nseg size.toNat ∧ i < n ∧ r.length = size.toNat ∧
        f = frameOf id size.toNat r i := by
  simp [Cmd.wf, and_assoc]

/-- The cursor of a waiting SEND_RECORD may move to the next segment while there is one (R94). -/
theorem Cmd.wf_nextSegment {id : Ident} {size : Len} {n i : Nat} {r : List Byte} {f : Frame}
    (h : Cmd.wf (.txWait .sendRecord id size n i r f) = true) (hi : i + 1 ≠ n) :
    Cmd.wf (.txWait .sendRecord id size n (i + 1) r (frameOf id size.toNat r (i + 1))) = true := by
  obtain ⟨hlo, hhi, hn, hin, hr, -⟩ := (Cmd.wf_sendRecord_iff ..).1 h
  exact (Cmd.wf_sendRecord_iff ..).2 ⟨hlo, hhi, hn, by omega, hr, rfl⟩

/-! ### Contexts -/

/-- A context of a size that takes several segments, with the bitmap and the buffer of that size: what holds of a context the
moment it is made, and between a write and the test for completion. -/
structure Context.Shaped (c : Context) : Prop where
  multi : singleMax < c.size.toNat
  size_le : c.size.toNat ≤ maxRecord
  received : c.received.length = nseg c.size.toNat
  value : c.value.length = c.size.toNat

theorem ctxWf_iff (p : Params) (m : Memory) : ctxWf p m = true ↔ Memory.wf m = true ∧ m.length ≤ p.nctx := by simp [ctxWf]

theorem ctxWf_erase {p : Params} {m : Memory} (id : Ident) (h : ctxWf p m = true) : ctxWf p (Memory.erase m id) = true := by
  obtain ⟨hwf, hlen⟩ := (ctxWf_iff p m).1 h
  exact (ctxWf_iff p _).2 ⟨Memory.erase_wf id hwf, (Memory.erase_length_le m id).trans hlen⟩

theorem ctxWf_dropOtherSize {p : Params} {m : Memory} (id : Ident) (size : Len) (h : ctxWf p m = true) :
    ctxWf p (Memory.dropOtherSize m id size) = true := by
  unfold Memory.dropOtherSize
  split
  · split
    · exact ctxWf_erase id h
    · exact h
  · exact h

/-- Keeping a context needs room only where its identifier has none (R111). -/
theorem ctxWf_put {p : Params} {m : Memory} {c : Context} (h : ctxWf p m = true) (hc : c.wf = true)
    (hroom : Memory.find m c.id = none → m.length < p.nctx) : ctxWf p (Memory.put m c) = true := by
  obtain ⟨hwf, hlen⟩ := (ctxWf_iff p m).1 h
  refine (ctxWf_iff p _).2 ⟨Memory.put_wf hwf hc, ?_⟩
  cases hf : Memory.find m c.id with
  | none => exact (length_putBy_le c m).trans (hroom hf)
  | some d =>
    have hid : d.id.toNat = c.id.toNat := congrArg BitVec.toNat (Memory.find_id hf)
    exact (length_putBy_of_mem ((Memory.wf_iff m).1 hwf).1 ⟨d, Memory.find_mem hf, hid⟩).trans_le hlen

/-! ### The command port -/

/-- Behind the one command of a legal port nothing stands (R126). -/
theorem decode_rest_of_cmdPortWf {ws rest : List Word} {i : Instr} (h : cmdPortWf ws = true)
    (hd : decode ws = .ok (i, rest)) : rest = [] := by
  cases ws with
  | nil => cases hd
  | cons w0 ws =>
    obtain ⟨-, rfl⟩ := decode_rest hd
    exact List.drop_eq_nil_of_le (of_decide_eq_true h)

theorem cmdPortWf_of_oneCommand {ws : List Word} (h : oneCommand ws = true) : cmdPortWf ws = true := by
  cases ws with
  | nil => rfl
  | cons w0 ws => exact decide_eq_true ((oneCommand_cons w0 ws).1 h).le

/-- An unknown opcode's one word is all that a legal port holds (R67, R126). -/
theorem drop_unknown_of_cmdPortWf {ws : List Word} {opc : BitVec 8} (h : cmdPortWf ws = true)
    (hd : decode ws = .error (.unknownOpcode opc)) : ws.drop 1 = [] := by
  cases ws with
  | nil => rfl
  | cons w0 ws =>
    have hlen : (w0 :: ws).length ≤ commandWords w0 := of_decide_eq_true h
    cases ho : Opcode.ofCode (opcField w0) with
    | none => exact List.drop_eq_nil_of_le (by simpa [commandWords, ho] using hlen)
    | some o =>
      simp only [decode, ho] at hd
      split at hd <;> cases hd

end Sys2Proof.Machine
end

section
/-! PROOFS. The invariant: `State.Legal` names the clauses of `State.wf`, each update of the state keeps them under the fact the
update turns on, and so does each agent's turn. -/

namespace Sys2Proof.Machine

/-- The clauses of `State.wf` by name (`State.wf_iff_legal`). -/
structure State.Legal (s : State) : Prop where
  params : s.params.wf = true
  exact : exactWf s.params s.exact = true
  masked : maskedWf s.params s.masked = true
  ctx : ctxWf s.params s.ctx = true
  cmd : s.cmd.wf = true
  resp : ∀ r, s.resp = some r → r.wf = true
  outq : outqWf s.params s.outq = true
  waitingUnanswered : s.cmd ≠ .idle → s.resp = none
  idleUnoffered : s.cmd = .idle → s.answer = none
  port : cmdPortWf s.cmdPort = true

theorem State.busy_iff (s : State) : s.busy = true ↔ s.cmd ≠ .idle := by
  cases h : s.cmd <;> simp [State.busy, h]

theorem portsWf_iff (s : State) :
    portsWf s = true ↔
      (s.cmd ≠ .idle → s.resp = none) ∧ (s.cmd = .idle → s.answer = none) ∧ cmdPortWf s.cmdPort = true := by
  have hidle : s.busy = false ↔ s.cmd = .idle := by
    rw [← Bool.not_eq_true, State.busy_iff, not_not]
  simp [portsWf, hidle, State.busy_iff, and_assoc, imp_iff_not_or, or_comm]

theorem State.wf_iff_legal (s : State) : s.wf = true ↔ s.Legal := by
  simp only [State.wf, Bool.and_eq_true, portsWf_iff, Option.all_eq_true]
  constructor
  · rintro ⟨⟨⟨⟨⟨⟨⟨hp, he⟩, hm⟩, hx⟩, hc⟩, hr⟩, hq⟩, hw, hi, ho⟩
    exact ⟨hp, he, hm, hx, hc, hr, hq, hw, hi, ho⟩
  · rintro ⟨hp, he, hm, hx, hc, hr, hq, hw, hi, ho⟩
    exact ⟨⟨⟨⟨⟨⟨⟨hp, he⟩, hm⟩, hx⟩, hc⟩, hr⟩, hq⟩, hw, hi, ho⟩

/-! ### Updates -/

namespace State.Legal

variable {s : State}

theorem withScript (h : s.Legal) (x : List Move) : (s.withScript x).Legal := { h with }

theorem withRxPort (h : s.Legal) (x : Option Frame) : (s.withRxPort x).Legal := { h with }

theorem withExact (h : s.Legal) {l : List ExactEntry} (hl : exactWf s.params l = true) : (s.withExact l).Legal :=
  { h with exact := hl }

theorem withMasked (h : s.Legal) {l : List MaskedEntry} (hl : maskedWf s.params l = true) : (s.withMasked l).Legal :=
  { h with masked := hl }

theorem withCtx (h : s.Legal) {m : Memory} (hm : ctxWf s.params m = true) : (s.withCtx m).Legal := { h with ctx := hm }

theorem withCmdPort (h : s.Legal) {ws : List Word} (hws : cmdPortWf ws = true) : (s.withCmdPort ws).Legal :=
  { h with port := hws }

/-- An answer may be taken at any time, and given while a command waits (R137). -/
theorem withAnswer (h : s.Legal) {a : Option TRes} (ha : s.cmd = .idle → a = none) : (s.withAnswer a).Legal :=
  { h with idleUnoffered := ha }

theorem readResponse (h : s.Legal) (ws : List Word) : ((s.withResp none).withRespLog (s.respLog ++ [ws])).Legal :=
  { h with resp := nofun, waitingUnanswered := fun _ => rfl }

theorem popEvent (h : s.Legal) {e : Event} {es : List Event} (hq : s.outq = e :: es) (ws : List Word) :
    ((s.withOutq es).withEventLog (s.eventLog ++ [ws])).Legal := by
  have hes : outqWf s.params es = true := by
    have := h.outq
    simp only [hq, outqWf, List.all_cons, List.length_cons, Bool.and_eq_true, decide_eq_true_eq] at this ⊢
    exact ⟨this.1.2, by omega⟩
  exact { h with outq := hes }

theorem resetBlock (h : s.Legal) : (resetBlock s).Legal where
  params := h.params
  exact := exactWf_nil _
  masked := maskedWf_nil _
  ctx := ctxWf_nil _
  cmd := rfl
  resp := nofun
  outq := outqWf_nil _
  waitingUnanswered := fun _ => rfl
  idleUnoffered := fun _ => rfl
  port := h.port

/-- A response is written while no command waits (R30). -/
theorem respond (h : s.Legal) (hidle : s.cmd = .idle) {st : Status} {i : Byte} {c : TCode} {k : Option Word}
    (hr : Response.wf ⟨st, i, c, k⟩ = true) : (respond st i c k s).Legal :=
  { h with
    resp := fun _ e => Option.some.inj e ▸ hr
    waitingUnanswered := fun hne => absurd hidle hne }

theorem respondOk (h : s.Legal) (hidle : s.cmd = .idle) : (respondOk s).Legal := h.respond hidle rfl

theorem respondIllegal (h : s.Legal) (hidle : s.cmd = .idle) : (respondIllegal s).Legal := h.respond hidle rfl

/-- An event is appended while `OUTQ` has a free entry (R100). -/
theorem emit (h : s.Legal) {e : Event} (hroom : s.outq.length < s.params.outqDepth) (he : e.wf = true) :
    (emit e s).Legal := by
  have hq : outqWf s.params (s.outq ++ [e]) = true := by
    have := h.outq
    simp only [outqWf, Bool.and_eq_true, decide_eq_true_eq] at this
    simpa [outqWf, he, this.1] using hroom
  exact { h with outq := hq }

/-- An offer is made while the response slot is empty (R127). -/
theorem txSend (h : s.Legal) (hresp : s.resp = none) {op : SendOp} {id : Ident} {size : Len} {n i : Nat} {r : List Byte}
    {f : Frame} (hc : Cmd.wf (.txWait op id size n i r f) = true) : (txSend op id size n i r f s).Legal :=
  { h with cmd := hc, waitingUnanswered := fun _ => hresp, idleUnoffered := nofun }

theorem ctrl (h : s.Legal) (hresp : s.resp = none) (op : CtlOp) : (ctrl op s).Legal :=
  { h with cmd := rfl, waitingUnanswered := fun _ => hresp, idleUnoffered := nofun }

/-- A command ends once its answer is taken (R128). -/
theorem finish (h : s.Legal) (ha : s.answer = none) (i : Nat) (a : TRes) : (finish i a s).Legal := by
  have hidle : (s.withCmd .idle).Legal :=
    { h with cmd := rfl, waitingUnanswered := fun hne => absurd rfl hne, idleUnoffered := fun _ => ha }
  cases a with
  | ok => exact hidle.respondOk rfl
  | fail code => exact hidle.respond rfl rfl

end State.Legal

/-! ### CMD -/

/-- What R127 asks of the state in which CMD takes a command, in a legal state. -/
structure State.Free (s : State) : Prop where
  legal : s.Legal
  idle : s.cmd = .idle
  resp : s.resp = none

section commands

variable {s : State}

theorem execCompose_legal (hs : s.Free) (h : Header) (base : Word) : Leaves State.Legal (execCompose h base s) := by
  unfold execCompose
  split
  · exact leaves_next.2 (hs.legal.respondIllegal hs.idle)
  · exact leaves_next.2 (hs.legal.respond hs.idle (by simp [Response.wf]))

theorem execSendFrame_legal (hs : s.Free) (h : Header) (id d0 d1 : Word) :
    Leaves State.Legal (execSendFrame h id d0 d1 s) := by
  unfold execSendFrame
  split
  · exact leaves_next.2 (hs.legal.respondIllegal hs.idle)
  · rename_i hok
    have hlen : h.len.toNat ≤ 8 := by simp only [not_or, not_lt] at hok; exact hok.2.2.1
    exact leaves_next.2 (hs.legal.txSend hs.resp (sentFrameOk_rawFrame h.rtr (idField id) d0 d1 hlen))

theorem execSendRecord_legal (hs : s.Free) (h : Header) (base : Word) (data : List Word) :
    Leaves State.Legal (execSendRecord h base data s) := by
  unfold execSendRecord
  split
  · exact leaves_next.2 (hs.legal.respondIllegal hs.idle)
  · rename_i hok
    obtain ⟨-, -, hlo, hhi, -⟩ : _ ∧ _ ∧ h.len.toNat ≠ 0 ∧ h.len.toNat ≤ maxRecord ∧ _ := by
      simpa only [not_or, not_lt] using hok
    refine leaves_next.2 (hs.legal.txSend hs.resp ((Cmd.wf_sendRecord_iff ..).2 ?_))
    exact ⟨Nat.one_le_iff_ne_zero.2 hlo, hhi, rfl, nseg_pos _, bytesOf_length _ _, rfl⟩

theorem execSendQuery_legal (hs : s.Free) (h : Header) (base : Word) : Leaves State.Legal (execSendQuery h base s) := by
  unfold execSendQuery
  split
  · exact leaves_next.2 (hs.legal.respondIllegal hs.idle)
  · exact leaves_next.2 (hs.legal.txSend hs.resp (sentFrameOk_queryFrame _))

theorem execRegister_legal (hs : s.Free) (h : Header) (key tag : Word) : Leaves State.Legal (execRegister h key tag s) := by
  unfold execRegister
  split
  · exact leaves_next.2 (hs.legal.respondIllegal hs.idle)
  · rename_i hok
    split
    · exact leaves_next.2 (hs.legal.respond hs.idle rfl)
    · split
      · exact leaves_next.2 (hs.legal.respond hs.idle rfl)
      · rename_i hroom
        have hentry : ExactEntry.wf ⟨key, h.len, tagField tag⟩ = true := by
          simp only [not_or, not_lt] at hok
          simp [ExactEntry.wf, hok]
        have htable := exactWf_putBy hs.legal.exact hentry (Nat.lt_of_not_le hroom)
        exact leaves_next.2 ((hs.legal.withExact htable).respondOk hs.idle)

theorem execRegisterMasked_legal (hs : s.Free) (h : Header) (base mask tag : Word) :
    Leaves State.Legal (execRegisterMasked h base mask tag s) := by
  unfold execRegisterMasked
  split
  · exact leaves_next.2 (hs.legal.respondIllegal hs.idle)
  · rename_i hok
    split
    · exact leaves_next.2 (hs.legal.respond hs.idle rfl)
    · rename_i hnew
      split
      · exact leaves_next.2 (hs.legal.respond hs.idle rfl)
      · rename_i hroom
        have hentry : MaskedEntry.wf ⟨base &&& mask, mask, h.len, tagField tag⟩ = true := by
          simp only [not_or, not_lt, Bool.not_eq_true] at hok
          simp [MaskedEntry.wf, hok, keyReserved_and, BitVec.and_assoc]
        have hfresh : ∀ d ∈ s.masked, ¬ (d.mask = mask ∧ d.base = base &&& mask) := by
          simpa using hnew
        have htable := maskedWf_append hs.legal.masked hentry hfresh (Nat.lt_of_not_le hroom)
        exact leaves_next.2 ((hs.legal.withMasked htable).respondOk hs.idle)

theorem execRemove_legal (hs : s.Free) (h : Header) (key : Word) : Leaves State.Legal (execRemove h key s) := by
  unfold execRemove
  split
  · exact leaves_next.2 (hs.legal.respondIllegal hs.idle)
  · exact leaves_next.2 ((hs.legal.withExact (exactWf_filter _ hs.legal.exact)).respondOk hs.idle)

theorem execRemoveMasked_legal (hs : s.Free) (h : Header) (base mask : Word) :
    Leaves State.Legal (execRemoveMasked h base mask s) := by
  unfold execRemoveMasked
  split
  · exact leaves_next.2 (hs.legal.respondIllegal hs.idle)
  · exact leaves_next.2 ((hs.legal.withMasked (maskedWf_filter _ hs.legal.masked)).respondOk hs.idle)

theorem execOpen_legal (hs : s.Free) (h : Header) : Leaves State.Legal (execOpen h s) := by
  unfold execOpen
  split
  · exact leaves_next.2 (hs.legal.respondIllegal hs.idle)
  · exact leaves_next.2 (hs.legal.ctrl hs.resp .openChannel)

theorem execClose_legal (hs : s.Free) (h : Header) : Leaves State.Legal (execClose h s) := by
  unfold execClose
  split
  · exact leaves_next.2 (hs.legal.respondIllegal hs.idle)
  · exact leaves_next.2 (hs.legal.ctrl hs.resp .closeChannel)

theorem exec_legal (hs : s.Free) (i : Instr) : Leaves State.Legal (exec i s) := by
  cases i with
  | compose h b => exact execCompose_legal hs h b
  | sendFrame h a d0 d1 => exact execSendFrame_legal hs h a d0 d1
  | sendRecord h b d => exact execSendRecord_legal hs h b d
  | sendQuery h b => exact execSendQuery_legal hs h b
  | register h k t => exact execRegister_legal hs h k t
  | registerMasked h b m t => exact execRegisterMasked_legal hs h b m t
  | remove h k => exact execRemove_legal hs h k
  | removeMasked h b m => exact execRemoveMasked_legal hs h b m
  | openChannel h => exact execOpen_legal hs h
  | closeChannel h => exact execClose_legal hs h

theorem takeCommand_legal (hs : s.Free) : Leaves State.Legal (takeCommand s) := by
  have emptied : (s.withCmdPort []).Free := ⟨hs.legal.withCmdPort rfl, hs.idle, hs.resp⟩
  unfold takeCommand
  split
  · rename_i i rest hd
    obtain rfl := decode_rest_of_cmdPortWf hs.legal.port hd
    exact exec_legal emptied i
  · rename_i opc hd
    rw [drop_unknown_of_cmdPortWf hs.legal.port hd]
    exact leaves_next.2 (emptied.legal.respondIllegal hs.idle)
  · exact leaves_next.2 hs.legal
  · exact leaves_next.2 hs.legal

end commands

theorem takeAnswer_legal {s : State} (h : s.Legal) (hresp : s.resp = none) (ha : s.answer = none) (a : TRes) :
    (takeAnswer a s).Legal := by
  rcases takeAnswer_shape a s with ⟨_, e⟩ | ⟨i, e⟩ | ⟨id, size, n, i, r, f, hc, _, hi, e⟩ <;> rw [e]
  · exact h
  · exact h.finish ha i a
  · exact h.txSend hresp (Cmd.wf_nextSegment (hc ▸ h.cmd) hi)

theorem cmdMove_legal {s : State} (h : s.Legal) : Leaves State.Legal (cmdMove s) := by
  rcases cmdMove_shape s with e | ⟨hresp, a, _, e⟩ | ⟨hresp, hidle, e⟩ <;> rw [e]
  · exact leaves_next.2 h
  · exact leaves_next.2 (takeAnswer_legal (h.withAnswer fun _ => rfl) hresp rfl a)
  · exact takeCommand_legal ⟨h, hidle, hresp⟩

/-! ### RXE -/

theorem Context.Shaped.event_wf {c : Context} (hc : c.Shaped) (tag : Tag) (f : Frame) (idx : Nat) :
    Event.wf (.record tag f.key c.size (c.accept f idx).value) = true := by
  have hlo : 1 ≤ c.size.toNat := Nat.one_le_of_lt hc.multi
  simp [Event.wf, hlo, hc.size_le, hc.value]

section receive

variable {s : State} {f : Frame}

theorem storeSegment_legal (h : s.Legal) (hroom : s.outq.length < s.params.outqDepth) {c : Context} (hc : c.Shaped)
    {idx : Nat} (hidx : idx < nseg c.size.toNat) (hctx : Memory.find s.ctx c.id = none → s.ctx.length < s.params.nctx)
    (tag : Tag) : (storeSegment tag f idx c s).Legal := by
  rcases storeSegment_shape tag f idx c s with ⟨_, e⟩ | ⟨hpart, e⟩ <;> rw [e]
  · exact (h.withCtx (ctxWf_erase f.id h.ctx)).emit hroom (hc.event_wf tag f idx)
  · have hwf : (c.accept f idx).wf = true :=
      Context.accept_wf hc.multi hc.size_le hc.received hc.value hidx hpart
    exact h.withCtx (ctxWf_put h.ctx hwf hctx)

/-- R110: an index past the last segment frees the context, and says so. -/
theorem takeIndexed_outOfRange {size : Len} {tag : Tag} (hi : nseg size.toNat ≤ (f.byte 0).toNat) :
    takeIndexed size tag f s
      = emit (.rxError tag f.key .invalidIndex f.size (f.byte 0)) (s.withCtx (Memory.erase s.ctx f.id)) := if_pos hi

/-- R111: a new context finds no room. -/
theorem takeIndexed_full {size : Len} {tag : Tag} (hi : ¬ nseg size.toNat ≤ (f.byte 0).toNat)
    (hf : Memory.find s.ctx f.id = none) (hfull : s.params.nctx ≤ s.ctx.length) :
    takeIndexed size tag f s = emit (.rxError tag f.key .ctxFull f.size (f.byte 0)) s := by
  simp only [takeIndexed, if_neg hi, hf, if_pos hfull]

theorem rxError_wf (h8 : f.size.toNat ≤ 8) {cause : RxCause} (hcause : cause ≠ .invalidSize) (tag : Tag) (seg : Byte) :
    Event.wf (.rxError tag f.key cause f.size seg) = true := by simp [Event.wf, h8, hcause]

theorem takeIndexed_legal (h : s.Legal) (hroom : s.outq.length < s.params.outqDepth) (h8 : f.size.toNat ≤ 8) {size : Len}
    (hlo : singleMax < size.toNat) (hhi : size.toNat ≤ maxRecord)
    (hsize : ∀ c, Memory.find s.ctx f.id = some c → c.size = size) (tag : Tag) : (takeIndexed size tag f s).Legal := by
  by_cases hi : nseg size.toNat ≤ (f.byte 0).toNat
  · rw [takeIndexed_outOfRange hi]
    exact (h.withCtx (ctxWf_erase f.id h.ctx)).emit hroom (rxError_wf h8 (by decide) tag _)
  by_cases hfull : Memory.find s.ctx f.id = none ∧ s.params.nctx ≤ s.ctx.length
  · rw [takeIndexed_full hi hfull.1 hfull.2]
    exact h.emit hroom (rxError_wf h8 (by decide) tag _)
  have hctx : Memory.find s.ctx f.id = none → s.ctx.length < s.params.nctx :=
    fun hn => Nat.lt_of_not_le fun hle => hfull ⟨hn, hle⟩
  obtain ⟨c, hid, rfl, hbits, hval, -, -, e⟩ := takeIndexed_inRange (tag := tag) ((ctxWf_iff _ _).1 h.ctx).1 hsize
    (Nat.lt_of_not_le hi) hctx
  rw [e]
  exact storeSegment_legal h hroom ⟨hlo, hhi, hbits, hval⟩ (Nat.lt_of_not_le hi) (hid ▸ hctx) tag

theorem takeSegment_legal (h : s.Legal) (hroom : s.outq.length < s.params.outqDepth) (h8 : f.size.toNat ≤ 8) {size : Len}
    (hlo : singleMax < size.toNat) (hhi : size.toNat ≤ maxRecord) (tag : Tag) : (takeSegment size tag f s).Legal := by
  unfold takeSegment
  split
  · exact h.emit hroom (by simp [Event.wf])
  · exact takeIndexed_legal (h.withCtx (ctxWf_dropOtherSize f.id size h.ctx)) hroom h8 hlo hhi
      (fun _ hc => (Memory.find_dropOtherSize_self hc).1) tag

theorem takeSingle_legal (h : s.Legal) (hroom : s.outq.length < s.params.outqDepth) (h8 : f.size.toNat ≤ 8) {size : Len}
    (hlo : size.toNat ≠ 0) (tag : Tag) : (takeSingle size tag f s).Legal := by
  unfold takeSingle
  split
  · rename_i he
    have hone : 1 ≤ size.toNat := Nat.one_le_iff_ne_zero.2 hlo
    have hmax : size.toNat ≤ 1792 := by omega
    have hlen : size.toNat ≤ 8 := he ▸ h8
    exact h.emit hroom (by simp [Event.wf, hone, hmax, hlen])
  · exact h.emit hroom (by simp [Event.wf, h8])

theorem takeRaw_legal (h : s.Legal) (hroom : s.outq.length < s.params.outqDepth) (h8 : f.size.toNat ≤ 8) (tag : Tag) :
    (takeRaw tag f s).Legal := h.emit hroom (by simp [Event.wf, h8, maskData_idem])

theorem receive_legal (h : s.Legal) (hroom : s.outq.length < s.params.outqDepth) : (receive f s).Legal := by
  unfold receive
  split
  · exact h
  · rename_i hport
    have h8 : f.size.toNat ≤ 8 := by omega
    split
    · exact h
    · rename_i t hsel
      have hlen : t.len.toNat ≤ maxRecord := select_len_le h.exact h.masked hsel
      unfold takeSelected
      split
      · exact takeRaw_legal h hroom h8 t.tag
      · rename_i hdata
        split
        · exact takeSingle_legal h hroom h8 (fun e => hdata (.inr e)) t.tag
        · rename_i hmulti
          exact takeSegment_legal h hroom h8 (Nat.lt_of_not_le hmulti) hlen t.tag

end receive

theorem rxeMove_legal {s : State} (h : s.Legal) : (rxeMove s).Legal := by
  rcases rxeMove_shape s with e | ⟨hready, f, _, e⟩ <;> rw [e]
  · exact h
  · exact receive_legal (h.withRxPort none) (of_decide_eq_true hready)

/-! ### The host and the transport -/

theorem hostMove_legal {s : State} (h : s.Legal) (a : HostAct) : (hostMove a s).Legal := by
  rcases hostMove_shape a s with e | ⟨ws, _, _, hone, e⟩ | ⟨r, _, _, e⟩ | ⟨ev, es, _, hq, e⟩ | ⟨_, e⟩ <;> rw [e]
  · exact h
  · exact h.withCmdPort (cmdPortWf_of_oneCommand hone)
  · exact h.readResponse r.words
  · exact h.popEvent hq ev.words
  · exact h.resetBlock

theorem transportMove_legal {s : State} (h : s.Legal) (a : TransportAct) : (transportMove a s).Legal := by
  rcases transportMove_shape a s with e | ⟨t, _, hbusy, _, e⟩ | ⟨f, _, _, e⟩ <;> rw [e]
  · exact h
  · exact h.withAnswer fun hidle => absurd hidle ((State.busy_iff s).1 hbusy)
  · exact h.withRxPort (some f)

/-! ### Every step -/

theorem move_legal {s : State} (h : s.Legal) (m : Move) : Leaves State.Legal (move m s) := by
  cases m with
  | host a => exact leaves_next.2 (hostMove_legal h a)
  | cmd => exact cmdMove_legal h
  | rxe => exact leaves_next.2 (rxeMove_legal h)
  | transport a => exact leaves_next.2 (transportMove_legal h a)

/-- The named clauses hold of every state a step leaves: the form of O4 to cite. -/
theorem step_legal {s : State} (h : s.Legal) : Leaves State.Legal (step s) := by
  cases hs : s.script with
  | nil => rw [step_nil hs]; exact leaves_next.2 h
  | cons m ms => rw [step_cons hs]; exact move_legal (h.withScript ms) m

/-- Settles O4: each agent's turn keeps the clauses of the invariant. -/
theorem everyStepKeepsTheInvariant : Obligations.EveryStepKeepsTheInvariant :=
  fun s t hs ht => (State.wf_iff_legal t).2 (step_legal ((State.wf_iff_legal s).1 hs) t ht)

end Sys2Proof.Machine
end

section
/-! PROOFS. Bytes and orders: a packed byte string read lane by lane, the run of a SEND_RECORD segment by segment, and the step
that starts a command. -/

namespace Sys2Proof.Machine

/-! ### Packed byte strings (R43, R75) -/

/-- Bit `j` of lane `k` is bit `8k + j` of the concatenation, and falls in its part `k`. -/
theorem lane_ofLanes (a b c d : Byte) {k : Nat} (hk : k < 4) : lane (ofLanes a b c d) k = [a, b, c, d].getD k 0 := by
  refine BitVec.eq_of_getLsbD_eq fun j hj => ?_
  simp only [lane, ofLanes, BitVec.getLsbD_extractLsb', BitVec.getLsbD_append, hj, decide_true, Bool.true_and]
  interval_cases k <;> simp <;> grind

theorem byteOf_cons_of_lt (w : Word) (ws : List Word) {k : Nat} (hk : k < 4) : byteOf (w :: ws) k = lane w k := by
  simp [byteOf, Nat.div_eq_of_lt hk, Nat.mod_eq_of_lt hk]

@[simp] theorem byteOf_cons_add_four (w : Word) (ws : List Word) (k : Nat) : byteOf (w :: ws) (k + 4) = byteOf ws k := by
  simp [byteOf]

@[simp] theorem byteOf_nil (k : Nat) : byteOf [] k = 0 := by simp [byteOf, lane]

theorem packWords_length (l : List Byte) : (packWords l).length = (l.length + 3) / 4 := by
  induction l using packWords.induct with
  | case1 => rfl
  | case2 a => simp [packWords]
  | case3 a b => simp [packWords]
  | case4 a b c => simp [packWords]
  | case5 a b c d rest ih => simp [packWords, ih]; omega

/-- Four bytes in front of a byte string are one word in front of its words. -/
theorem byteOf_ofLanes_cons (a b c d : Byte) (ws : List Word) (rest : List Byte)
    (ih : ∀ k, byteOf ws k = rest.getD k 0) (k : Nat) :
    byteOf (ofLanes a b c d :: ws) k = (a :: b :: c :: d :: rest).getD k 0 := by
  rcases lt_or_ge k 4 with hk | hk
  · rw [byteOf_cons_of_lt _ _ hk, lane_ofLanes a b c d hk]
    interval_cases k <;> rfl
  · obtain ⟨k, rfl⟩ := Nat.exists_eq_add_of_le' hk
    rw [byteOf_cons_add_four, ih]
    rfl

theorem getD_append_zeros (l : List Byte) (n k : Nat) : (l ++ List.replicate n 0).getD k 0 = l.getD k 0 := by
  grind

theorem byteOf_packWords (l : List Byte) : ∀ k, byteOf (packWords l) k = l.getD k 0 := by
  induction l using packWords.induct with
  | case1 => intro k; rw [packWords, byteOf_nil]; rfl
  | case2 a => exact fun k => (byteOf_ofLanes_cons a 0 0 0 [] [] byteOf_nil k).trans (getD_append_zeros [a] 3 k)
  | case3 a b => exact fun k => (byteOf_ofLanes_cons a b 0 0 [] [] byteOf_nil k).trans (getD_append_zeros [a, b] 2 k)
  | case4 a b c => exact fun k => (byteOf_ofLanes_cons a b c 0 [] [] byteOf_nil k).trans (getD_append_zeros [a, b, c] 1 k)
  | case5 a b c d rest ih => exact byteOf_ofLanes_cons a b c d (packWords rest) rest ih

/-- Settles O21: each byte is read back from its lane, and past the end a byte string reads as 0. -/
theorem packedBytesSitInTheirLanes : Obligations.PackedBytesSitInTheirLanes := by
  intro l
  refine ⟨packWords_length l, fun k _ => byteOf_packWords l k, fun k hk => ?pastTheEnd⟩
  case pastTheEnd => exact (byteOf_packWords l k).trans (List.getD_eq_default l 0 hk)

/-! ### A SEND_RECORD and its answers (R92 to R94) -/

/-- CMD waits for the answer to segment `i` of a record, the segments up to it offered. -/
def State.sending (s : State) (id : Ident) (size : Len) (record : List Byte) (i : Nat) : State :=
  (s.withCmd (.txWait .sendRecord id size (nseg size.toNat) i record (frameOf id size.toNat record i))).withTxLog
    (s.txLog ++ (List.range (i + 1)).map (frameOf id size.toNat record))

theorem baseReserved_eq_zero_iff (w : Word) : baseReserved w = 0 ↔ w.toNat < 2 ^ 21 := by
  have hw := w.isLt
  rw [baseReserved, ← BitVec.toNat_inj]
  simp only [BitVec.extractLsb'_toNat, Nat.shiftRight_eq_div_pow, BitVec.ofNat_eq_ofNat, BitVec.toNat_ofNat]
  omega

theorem baseField_eq_setWidth (w : Word) : baseField w = w.setWidth 21 :=
  (BitVec.setWidth_eq_extractLsb' (by decide)).symm

/-- The tests of R69 (b) to (e), each as what it asks of the header. -/
theorem instr_legal_iff (i : Instr) :
    i.legal = true ↔
      i.header.rsv = 0 ∧
      ((i.fieldRule.nodeUsed = true ∨ i.header.node = 0) ∧ (i.fieldRule.rtrUsed = true ∨ i.header.rtr = false)) ∧
      (i.fieldRule.lenLo ≤ i.header.len.toNat ∧ i.header.len.toNat ≤ i.fieldRule.lenHi) ∧
      i.operandsOk = true := by
  simp [Instr.legal, Header.rsvClear, Header.unusedClear, Header.lenInRange, and_assoc]

theorem legal_sendRecord_iff (h : Header) (base : Word) (data : List Word) :
    (Instr.sendRecord h base data).legal = true ↔
      h.rsv = 0 ∧ h.rtr = false ∧ (1 ≤ h.len.toNat ∧ h.len.toNat ≤ maxRecord) ∧ base.toNat < 2 ^ 21 := by
  rw [instr_legal_iff]
  simp [Instr.header, Instr.fieldRule, Instr.operandsOk, baseWordOk]

/-- R93: the first step offers segment 0. -/
theorem exec_sendRecord_of_legal {h : Header} {base : Word} {data : List Word} (s : State)
    (hl : (Instr.sendRecord h base data).legal = true) :
    exec (.sendRecord h base data) s = .next
      (s.sending (composeId (base.setWidth 21) h.node) h.len (bytesOf data h.len.toNat) 0) := by
  obtain ⟨hrsv, hrtr, ⟨hlo, hhi⟩, hbase⟩ := (legal_sendRecord_iff h base data).1 hl
  have hok : ¬ (h.rtr = true ∨ h.rsv ≠ 0 ∨ h.len.toNat = 0 ∨ maxRecord < h.len.toNat ∨ baseReserved base ≠ 0) := by
    simp only [hrtr, hrsv, ne_eq, baseReserved_eq_zero_iff, hbase, Bool.false_eq_true, not_true_eq_false, false_or, or_false]
    omega
  rw [exec, execSendRecord, if_neg hok, baseField_eq_setWidth]
  rfl

theorem answerAll_concat (ts : List TRes) (t : TRes) (s : State) :
    answerAll (ts ++ [t]) s = takeAnswer t (answerAll ts s) := by
  simp [answerAll]

section answers

variable (s : State) (id : Ident) (size : Len) (record : List Byte)

/-- R94: while a segment is left, OK offers the next one. -/
theorem takeAnswer_ok_sending {i : Nat} (hi : i + 1 < nseg size.toNat) :
    takeAnswer .ok (s.sending id size record i) = s.sending id size record (i + 1) := by
  have hnext : takeAnswer .ok (s.sending id size record i)
      = txSend .sendRecord id size (nseg size.toNat) (i + 1) record (frameOf id size.toNat record (i + 1))
          (s.sending id size record i) := if_pos ⟨rfl, hi.ne⟩
  rw [hnext, State.sending, State.sending, List.range_succ (n := i + 1)]
  simp [txSend, State.withCmd, State.withTxLog]

/-- R94: the answer to the last segment finishes the command. -/
theorem takeAnswer_sending_last (t : TRes) {i : Nat} (hi : i + 1 = nseg size.toNat) :
    takeAnswer t (s.sending id size record i) = finish i t (s.sending id size record i) :=
  if_neg fun h => h.2 hi

/-- `i` answers OK, fewer than there are segments, leave CMD waiting for the answer to segment `i`. -/
theorem answerAll_ok_sending (i : Nat) (hi : i < nseg size.toNat) :
    answerAll (List.replicate i .ok) (s.sending id size record 0) = s.sending id size record i := by
  induction i with
  | zero => rfl
  | succ i ih =>
    rw [List.replicate_succ', answerAll_concat, ih (by omega), takeAnswer_ok_sending s id size record hi]

/-- One OK per segment: the frames of the record in index order, then the response. -/
theorem answerAll_ok_sending_all :
    answerAll (List.replicate (nseg size.toNat) .ok) (s.sending id size record 0)
      = respondOk ((s.withCmd .idle).withTxLog (s.txLog ++ framesOf id size.toNat record)) := by
  obtain ⟨i, hi⟩ : ∃ i, nseg size.toNat = i + 1 := Nat.exists_eq_add_one.2 (nseg_pos size.toNat)
  rw [hi, List.replicate_succ', answerAll_concat, answerAll_ok_sending s id size record i (by omega),
    takeAnswer_sending_last s id size record .ok hi.symm, framesOf, hi]
  rfl

end answers

/-- Settles O34: the first step offers segment 0, and each OK the next one, until the last OK is the response. -/
theorem sendRecordSendsEverySegmentInOrder : Obligations.SendRecordSendsEverySegmentInOrder := by
  intro h base data s hwf
  have hlegal : (Instr.sendRecord h base data).legal = true := (Bool.and_eq_true_iff.1 hwf).2
  exact ⟨_, exec_sendRecord_of_legal s hlegal, answerAll_ok_sending_all s _ h.len _⟩

/-! ### The step that starts a command (R47, R127) -/

theorem cmdMove_of_commandReady {s : State} (h : s.commandReady = true) : cmdMove s = takeCommand s := by
  simp only [State.commandReady, Bool.and_eq_true, Bool.not_eq_true'] at h
  simp [cmdMove, h]

theorem takeCommand_of_decode {s : State} {i : Instr} {rest : List Word} (h : decode s.cmdPort = .ok (i, rest)) :
    takeCommand s = exec i (s.withCmdPort rest) := by
  simp only [takeCommand, h]

/-- Settles O14: the schedule gives CMD its turn, CMD is ready, and the decoder says which command it takes. -/
theorem stepRunsTheDecodedCommand : Obligations.StepRunsTheDecodedCommand := by
  intro s ms i rest hscript hready hdecode
  have hready' : (s.withScript ms).commandReady = true := hready
  have hdecode' : decode (s.withScript ms).cmdPort = .ok (i, rest) := hdecode
  calc step s = cmdMove (s.withScript ms) := step_cons hscript
    _ = takeCommand (s.withScript ms) := cmdMove_of_commandReady hready'
    _ = exec i ((s.withScript ms).withCmdPort rest) := takeCommand_of_decode hdecode'

end Sys2Proof.Machine
end

section
/-! PROOFS. Encodings: a header word and its fields determine each other, what the decoder answers in each case, the words CMD
takes, where a command is illegal, and the fields of the words the host reads. -/

namespace Sys2Proof.Machine

/-! ### Words and their fields as numbers -/

theorem toNat_append_eq_add {m n : Nat} (x : BitVec m) (y : BitVec n) : (x ++ y).toNat = x.toNat * 2 ^ n + y.toNat := by
  rw [BitVec.toNat_append, ← Nat.shiftLeft_add_eq_or_of_lt y.isLt, Nat.shiftLeft_eq]

theorem toNat_extractLsb'_eq_div_mod {n : Nat} (x : BitVec n) (start len : Nat) :
    (x.extractLsb' start len).toNat = x.toNat / 2 ^ start % 2 ^ len := by
  rw [BitVec.extractLsb'_toNat, Nat.shiftRight_eq_div_pow]

theorem toNat_getLsbD_eq_div_mod {n : Nat} (x : BitVec n) (k : Nat) : (x.getLsbD k).toNat = x.toNat / 2 ^ k % 2 :=
  Nat.toNat_testBit x.toNat k

theorem getLsbD_eq_iff {n : Nat} (x : BitVec n) (k : Nat) (b : Bool) : x.getLsbD k = b ↔ x.toNat / 2 ^ k % 2 = b.toNat := by
  rw [← toNat_getLsbD_eq_div_mod]
  cases x.getLsbD k <;> cases b <;> decide

/-- The bits from `start` up are 0 exactly where the word is below `2 ^ start`. -/
theorem extractLsb'_high_eq_zero_iff (w : Word) {start len : Nat} (h : start + len = 32) :
    w.extractLsb' start len = 0 ↔ w.toNat < 2 ^ start := by
  have hhigh : w.toNat / 2 ^ start < 2 ^ len := by
    rw [Nat.div_lt_iff_lt_mul (Nat.two_pow_pos start), ← Nat.pow_add, Nat.add_comm, h]
    exact w.isLt
  rw [← BitVec.toNat_inj, toNat_extractLsb'_eq_div_mod, Nat.mod_eq_of_lt hhigh]
  exact Nat.div_eq_zero_iff_lt (Nat.two_pow_pos start)

/-! ### Header words (R66) -/

theorem headerWord_toNat (o : Opcode) (h : Header) :
    (headerWord o h).toNat =
      o.code.toNat * 2 ^ 24 + h.node.toNat * 2 ^ 16 + h.rtr.toNat * 2 ^ 15 + h.rsv.toNat * 2 ^ 11 + h.len.toNat := by
  simp only [headerWord, toNat_append_eq_add, BitVec.toNat_ofBool]
  omega

theorem headerFields_headerWord (o : Opcode) (h : Header) : headerFields (headerWord o h) = h := by
  have hword := headerWord_toNat o h
  obtain ⟨node, rtr, rsv, len⟩ := h
  have hnode := node.isLt
  have hrtr := rtr.toNat_lt
  have hrsv := rsv.isLt
  have hlen := len.isLt
  simp only [headerFields, Header.mk.injEq, getLsbD_eq_iff, ← BitVec.toNat_inj, toNat_extractLsb'_eq_div_mod, hword]
  omega

/-- A word is its opcode and its header fields, side by side: no bit of it lies outside them. -/
theorem headerWord_headerFields {o : Opcode} {w : Word} (h : o.code = opcField w) : headerWord o (headerFields w) = w := by
  have hw := w.isLt
  rw [← BitVec.toNat_inj, headerWord_toNat, h]
  simp only [opcField, headerFields, toNat_extractLsb'_eq_div_mod, toNat_getLsbD_eq_div_mod]
  omega

/-! ### Opcodes (R68) -/

theorem ofCode_eq_some_iff {b : BitVec 8} {o : Opcode} : Opcode.ofCode b = some o ↔ o.code = b := by
  constructor
  · intro h
    simpa using List.find?_some h
  · rintro rfl
    exact Laws.ofCode_code o

theorem ofCode_eq_none_iff {b : BitVec 8} :
    Opcode.ofCode b = none ↔ b.toNat ∉ Opcode.all.map fun o => o.code.toNat := by
  simp [Opcode.ofCode, BitVec.toNat_inj]

/-! ### The length of a command (R67) -/

theorem commandWords_known {w0 : Word} {o : Opcode} (h : Opcode.ofCode (opcField w0) = some o) :
    commandWords w0 = 1 + o.operandCount (headerFields w0).len := by
  simp only [commandWords, h]

theorem commandWords_unknown {w0 : Word} (h : Opcode.ofCode (opcField w0) = none) : commandWords w0 = 1 := by
  simp only [commandWords, h]

/-- The longest command is a SEND_RECORD with the greatest `LEN`, 2047. -/
theorem operandCount_le (o : Opcode) (len : Len) : o.operandCount len ≤ 513 := by
  have hlen := len.isLt
  cases o <;> simp only [Opcode.operandCount] <;> omega

theorem headerFields_len_toNat (w : Word) : (headerFields w).len.toNat = w.toNat % 2 ^ 11 := by
  simp [headerFields]

/-- Settles O10: row by row of the table, and 1 for an opcode that is in no row. -/
theorem commandLengthTable : Obligations.CommandLengthTable := by
  intro w0 opc len
  cases ho : Opcode.ofCode (opcField w0) with
  | none =>
    have hopc : opc ∉ Opcode.all.map fun o => o.code.toNat := ofCode_eq_none_iff.1 ho
    simp [Opcode.all, Opcode.code] at hopc
    simp [commandWords_unknown ho, hopc]
  | some o =>
    have hopc : opc = o.code.toNat := congrArg BitVec.toNat (ofCode_eq_some_iff.1 ho).symm
    have hlen : (headerFields w0).len.toNat = len := headerFields_len_toNat w0
    have hmax := operandCount_le o (headerFields w0).len
    rw [commandWords_known ho, hopc]
    refine ⟨?_, by omega⟩
    cases o with
    | sendRecord =>
      change 1 + (1 + ((headerFields w0).len.toNat + 3) / 4) = if len = 0 then 2 else 2 + (len + 4 - 1) / 4
      rw [hlen]
      split <;> omega
    | _ => rfl

/-! ### The decoder, case by case -/

theorem decode_unknown {w0 : Word} (ws : List Word) (h : Opcode.ofCode (opcField w0) = none) :
    decode (w0 :: ws) = .error (.unknownOpcode (opcField w0)) := by
  simp only [decode, h]

theorem decode_known {w0 : Word} {o : Opcode} {ops : List Word} (rest : List Word)
    (h : Opcode.ofCode (opcField w0) = some o) (hops : ops.length = o.operandCount (headerFields w0).len) :
    decode (w0 :: (ops ++ rest)) = .ok (o.build (headerFields w0) ops, rest) := by
  simp [decode, h, ← hops]

theorem decode_incomplete {w0 : Word} {ws : List Word} (h : (w0 :: ws).length < commandWords w0) :
    decode (w0 :: ws) = .error .incomplete := by
  cases ho : Opcode.ofCode (opcField w0) with
  | none => simp [commandWords_unknown ho] at h
  | some o =>
    rw [commandWords_known ho, List.length_cons] at h
    simp only [decode, ho]
    exact if_pos (by omega)

/-- The decoder reads a command where a known opcode stands in front of as many operand words as R67 counts. -/
theorem decode_eq_ok_iff {ws rest : List Word} {i : Instr} :
    decode ws = .ok (i, rest) ↔
      ∃ w0 o ops, Opcode.ofCode (opcField w0) = some o ∧ ops.length = o.operandCount (headerFields w0).len ∧
        ws = w0 :: (ops ++ rest) ∧ i = o.build (headerFields w0) ops := by
  constructor
  · intro h
    cases ws with
    | nil => cases h
    | cons w0 ws =>
      cases ho : Opcode.ofCode (opcField w0) with
      | none => rw [decode_unknown ws ho] at h; cases h
      | some o =>
        obtain ⟨hlen, -⟩ := decode_rest h
        rw [commandWords_known ho, List.length_cons] at hlen
        have hops : (ws.take (o.operandCount (headerFields w0).len)).length = o.operandCount (headerFields w0).len :=
          List.length_take_of_le (by omega)
        have hread := decode_known (ws.drop (o.operandCount (headerFields w0).len)) ho hops
        rw [List.take_append_drop, h] at hread
        obtain ⟨rfl, rfl⟩ := Prod.mk.inj (Except.ok.inj hread)
        exact ⟨w0, o, _, ho, hops, by rw [List.take_append_drop], rfl⟩
  · rintro ⟨w0, o, ops, ho, hops, rfl, rfl⟩
    exact decode_known rest ho hops

/-! ### Commands and their operand words (R68) -/

theorem operands_length {i : Instr} (h : i.shaped = true) : i.operands.length = i.opcode.operandCount i.header.len := by
  cases i with
  | sendRecord hd b d =>
    have hd : d.length = (hd.len.toNat + 3) / 4 := by simpa [Instr.shaped] using h
    simp only [Instr.operands, Instr.opcode, Instr.header, Opcode.operandCount, List.length_cons, hd]
    omega
  | _ => rfl

theorem build_operands (i : Instr) : i.opcode.build i.header i.operands = i := by
  cases i <;> rfl

@[simp] theorem build_opcode (o : Opcode) (h : Header) (ops : List Word) : (o.build h ops).opcode = o := by
  cases o <;> rfl

@[simp] theorem build_header (o : Opcode) (h : Header) (ops : List Word) : (o.build h ops).header = h := by
  cases o <;> rfl

/-- A row uses every one of the operand words R67 counts for it. -/
theorem operands_build {o : Opcode} {h : Header} {ops : List Word} (hops : ops.length = o.operandCount h.len) :
    (o.build h ops).operands = ops := by
  cases o with
  | compose | sendQuery | remove => obtain ⟨a, rfl⟩ := List.length_eq_one_iff.1 hops; rfl
  | register | removeMasked => obtain ⟨a, b, rfl⟩ := List.length_eq_two.1 hops; rfl
  | sendFrame | registerMasked => obtain ⟨a, b, c, rfl⟩ := List.length_eq_three.1 hops; rfl
  | sendRecord =>
    cases ops with
    | nil => simp [Opcode.operandCount] at hops; omega
    | cons b d => rfl
  | openChannel | closeChannel => exact (List.length_eq_zero_iff.1 hops).symm

theorem shaped_build {o : Opcode} {h : Header} {ops : List Word} (hops : ops.length = o.operandCount h.len) :
    (o.build h ops).shaped = true := by
  cases o with
  | sendRecord => simp [Opcode.build, Instr.shaped, hops, Opcode.operandCount]
  | _ => rfl

theorem decode_encode {i : Instr} (rest : List Word) (h : i.shaped = true) : decode (encode i ++ rest) = .ok (i, rest) := by
  refine decode_eq_ok_iff.2 ⟨headerWord i.opcode i.header, i.opcode, i.operands, ?row, ?count, rfl, ?term⟩
  case row => rw [Laws.opcField_headerWord, Laws.ofCode_code]
  case count => rw [headerFields_headerWord, operands_length h]
  case term => rw [headerFields_headerWord, build_operands]

/-- Settles O7: the header word gives back its row and its fields, the row its operand words. -/
theorem decodeOfEncode : Obligations.DecodeOfEncode := fun _ rest h => decode_encode rest h

/-- Settles O8: the header word is put together again from its row and its fields, the operand words from the row's term. -/
theorem encodeOfDecode : Obligations.EncodeOfDecode := by
  intro ws rest i h
  obtain ⟨w0, o, ops, ho, hops, rfl, rfl⟩ := decode_eq_ok_iff.1 h
  refine ⟨?_, shaped_build hops⟩
  rw [encode, build_opcode, build_header, operands_build hops, headerWord_headerFields (ofCode_eq_some_iff.1 ho)]
  rfl

/-- Settles O9: each command's words are its encoding (with one word behind the SEND_RECORD), and opcode 5 is in no row. -/
theorem sampleWordsDecode : Obligations.SampleWordsDecode := by
  refine ⟨?compose, ?sendFrame, ?sendRecord, ?sendQuery, ?registerMasked, ?closeChannel, ?unknown⟩
  case compose => exact decode_encode (i := .compose ⟨5, true, 0, 0⟩ 0x1234) [] rfl
  case sendFrame => exact decode_encode (i := .sendFrame ⟨0, false, 0, 2⟩ 0x105 0xBBAA 0) [] rfl
  case sendRecord =>
    exact decode_encode (i := .sendRecord ⟨3, false, 0, 9⟩ 0x10 [0xA3A2A1A0, 0xA7A6A5A4, 0xA8]) [0x20000000] rfl
  case sendQuery => exact decode_encode (i := .sendQuery ⟨5, false, 0, 0⟩ 0x1234) [] rfl
  case registerMasked =>
    exact decode_encode (i := .registerMasked ⟨0, false, 0, 20⟩ 0x123400 0x1FFFFF00 9) [] rfl
  case closeChannel => exact decode_encode (i := .closeChannel ⟨0, false, 0, 0⟩) [] rfl
  case unknown => exact decode_unknown [0x01050000] rfl

/-! ### The words CMD takes (R67, R69, R136) -/

/-- A first step goes on, and leaves the command port as it is. -/
theorem exec_cmdPort (i : Instr) (s : State) : ∃ t, exec i s = .next t ∧ t.cmdPort = s.cmdPort := by
  rcases exec_shape i s with ⟨_, _, h⟩ | ⟨_, _, _, _, _, _, h⟩ | ⟨_, h⟩ | ⟨_, h⟩ | ⟨_, h⟩ <;> exact ⟨_, h, rfl⟩

section takeCommand

variable {s : State} {w0 : Word} {ws : List Word}

theorem takeCommand_of_unknown (hport : s.cmdPort = w0 :: ws) (ho : Opcode.ofCode (opcField w0) = none) :
    takeCommand s = .next (respondIllegal (s.withCmdPort ws)) := by
  simp only [takeCommand, hport, decode_unknown ws ho, List.drop_one, List.tail_cons]

theorem takeCommand_of_incomplete (hport : s.cmdPort = w0 :: ws) (h : (w0 :: ws).length < commandWords w0) :
    takeCommand s = .next s := by
  simp only [takeCommand, hport, decode_incomplete h]

theorem takeCommand_of_whole (hport : s.cmdPort = w0 :: ws) (h : commandWords w0 ≤ (w0 :: ws).length) :
    ∃ t, takeCommand s = .next t ∧ t.cmdPort = (w0 :: ws).drop (commandWords w0) := by
  cases ho : Opcode.ofCode (opcField w0) with
  | none => exact ⟨_, takeCommand_of_unknown hport ho, by rw [commandWords_unknown ho]; rfl⟩
  | some o =>
    obtain ⟨ops, rest, rfl, hops⟩ : ∃ ops rest, ws = ops ++ rest ∧ ops.length = o.operandCount (headerFields w0).len := by
      rw [commandWords_known ho, List.length_cons] at h
      exact ⟨_, _, (List.take_append_drop _ ws).symm, List.length_take_of_le (by omega)⟩
    have hd := decode_known rest ho hops
    obtain ⟨-, hrest⟩ := decode_rest hd
    obtain ⟨t, ht, htp⟩ := exec_cmdPort (o.build (headerFields w0) ops) (s.withCmdPort rest)
    exact ⟨t, (takeCommand_of_decode (hport ▸ hd)).trans ht, htp.trans hrest⟩

end takeCommand

/-- Settles O12: the decoder rejects the opcode, and CMD answers for its one word. -/
theorem unknownOpcodeTakesOneWord : Obligations.UnknownOpcodeTakesOneWord := by
  intro s w0 ws hready hport hopc
  exact (cmdMove_of_commandReady hready).trans (takeCommand_of_unknown hport (ofCode_eq_none_iff.2 hopc))

/-- Settles O13: CMD's turn takes a whole command, known or not, and an unfinished one waits. -/
theorem takingACommandConsumesItsWords : Obligations.TakingACommandConsumesItsWords := by
  intro s w0 ws hready hport
  have hmove : move .cmd s = takeCommand s := cmdMove_of_commandReady hready
  rw [hmove]
  exact ⟨takeCommand_of_whole hport, takeCommand_of_incomplete hport⟩

/-! ### The reserved bits of operand words (R58 to R61) -/

@[simp] theorem baseWordOk_eq_false_iff (w : Word) : baseWordOk w = false ↔ baseReserved w ≠ 0 :=
  decide_eq_false_iff_not.trans (baseReserved_eq_zero_iff w).not.symm

@[simp] theorem idWordOk_eq_false_iff (w : Word) : idWordOk w = false ↔ idReserved w ≠ 0 :=
  decide_eq_false_iff_not.trans (extractLsb'_high_eq_zero_iff w rfl).not.symm

@[simp] theorem tagWordOk_eq_false_iff (w : Word) : tagWordOk w = false ↔ tagReserved w ≠ 0 :=
  decide_eq_false_iff_not.trans (extractLsb'_high_eq_zero_iff w rfl).not.symm

/-- The mask of R58 has exactly the bits 31 and 29. -/
@[simp] theorem keyWordOk_eq_not_keyReserved (w : Word) : keyWordOk w = !keyReserved w := by
  have hmask : ∀ k, k < 32 → ((0xA0000000 : Word).getLsbD k = true ↔ k = 31 ∨ k = 29) := by decide
  have hclear : w &&& 0xA0000000 = 0 ↔ ∀ k, k < 32 → w.getLsbD k = true → (0xA0000000 : Word).getLsbD k = false := by
    simp [BitVec.eq_of_getLsbD_eq_iff]
  rw [Bool.eq_iff_iff, keyWordOk, beq_iff_eq, hclear, keyReserved]
  grind

/-! ### Illegal commands (R69, R142) -/

theorem respond_ne_respondIllegal {st : Status} (hst : st ≠ .illegalCommand) (i : Byte) (c : TCode) (k : Option Word)
    (t s : State) : respond st i c k t ≠ respondIllegal s := by
  intro h
  have hresp := congrArg State.resp h
  simp [hst] at hresp

theorem txSend_ne_respondIllegal (op : SendOp) (id : Ident) (size : Len) (n i : Nat) (r : List Byte) (f : Frame) (s : State) :
    txSend op id size n i r f s ≠ respondIllegal s := by
  intro h
  have hlog := congrArg State.txLog h
  simp at hlog

theorem ctrl_ne_respondIllegal (op : CtlOp) (s : State) : ctrl op s ≠ respondIllegal s := by
  intro h
  have hlog := congrArg State.ctlLog h
  simp at hlog

/-- An outcome that is not the answer to an illegal command. -/
def Accepts (s : State) (r : Result) : Prop := r ≠ .next (respondIllegal s)

section accepts

variable {s : State}

theorem accepts_next_iff {t : State} : Accepts s (.next t) ↔ t ≠ respondIllegal s := by simp [Accepts]

theorem accepts_respond {st : Status} (hst : st ≠ .illegalCommand) {i : Byte} {c : TCode} {k : Option Word} {t : State} :
    Accepts s (.next (respond st i c k t)) := accepts_next_iff.2 (respond_ne_respondIllegal hst i c k t s)

theorem accepts_txSend {op : SendOp} {id : Ident} {size : Len} {n i : Nat} {r : List Byte} {f : Frame} :
    Accepts s (.next (txSend op id size n i r f s)) := accepts_next_iff.2 (txSend_ne_respondIllegal op id size n i r f s)

theorem accepts_ctrl {op : CtlOp} : Accepts s (.next (ctrl op s)) := accepts_next_iff.2 (ctrl_ne_respondIllegal op s)

/-- The tail that REGISTER and REGISTER_MASKED share: the entry exists, the table is full, or the entry is added. -/
theorem accepts_addEntry {p q : Prop} [Decidable p] [Decidable q] {t : State} :
    Accepts s (if p then .next (respond .entryExists 0 0 none s) else if q then .next (respond .tableFull 0 0 none s)
      else .next (respondOk t)) := by
  split
  · exact accepts_respond (by decide)
  · split
    · exact accepts_respond (by decide)
    · exact accepts_respond (by decide)

/-- A meaning that tests `p` first and otherwise accepts answers ILLEGAL_COMMAND exactly where `p` holds. -/
theorem guarded_eq_respondIllegal_iff {p q : Prop} [Decidable p] {r : Result} (hpq : p ↔ q) (hr : Accepts s r) :
    (if p then .next (respondIllegal s) else r) = .next (respondIllegal s) ↔ q := by
  rw [← hpq]
  by_cases hp : p
  · simp [hp]
  · simp only [if_neg hp, iff_false_right hp]
    exact hr

end accepts

/-- R69 (b) to (e), as a list of the ways to be illegal. -/
theorem legal_eq_false_iff (i : Instr) :
    i.legal = false ↔
      i.header.rsv ≠ 0 ∨
      (i.fieldRule.nodeUsed = false ∧ i.header.node ≠ 0) ∨ (i.fieldRule.rtrUsed = false ∧ i.header.rtr = true) ∨
      (i.header.len.toNat < i.fieldRule.lenLo ∨ i.fieldRule.lenHi < i.header.len.toNat) ∨
      i.operandsOk = false := by
  rw [← Bool.not_eq_true, instr_legal_iff]
  grind

theorem toNat_pos_iff_ne_zero {n : Nat} (x : BitVec n) : 0 < x.toNat ↔ ¬ x = 0 := by
  rw [Nat.pos_iff_ne_zero, ne_eq, ← BitVec.toNat_inj]
  rfl

/-- The first test of each meaning is the row of its opcode, and what follows the test accepts. -/
theorem exec_eq_respondIllegal_iff (i : Instr) (s : State) :
    exec i s = .next (respondIllegal s) ↔ i.legal = false := by
  rw [legal_eq_false_iff]
  cases i
  case' compose h b => refine guarded_eq_respondIllegal_iff ?_ (accepts_respond (by decide))
  case' sendFrame h a d0 d1 => refine guarded_eq_respondIllegal_iff ?_ accepts_txSend
  case' sendRecord h b d => refine guarded_eq_respondIllegal_iff ?_ accepts_txSend
  case' sendQuery h b => refine guarded_eq_respondIllegal_iff ?_ accepts_txSend
  case' register h k t => refine guarded_eq_respondIllegal_iff ?_ accepts_addEntry
  case' registerMasked h b m t => refine guarded_eq_respondIllegal_iff ?_ accepts_addEntry
  case' remove h k => refine guarded_eq_respondIllegal_iff ?_ (accepts_respond (by decide))
  case' removeMasked h b m => refine guarded_eq_respondIllegal_iff ?_ (accepts_respond (by decide))
  case' openChannel h => refine guarded_eq_respondIllegal_iff ?_ accepts_ctrl
  case' closeChannel h => refine guarded_eq_respondIllegal_iff ?_ accepts_ctrl
  all_goals
    simp [Instr.header, Instr.fieldRule, Instr.operandsOk, toNat_pos_iff_ne_zero, -Bool.and_eq_false_imp,
      Bool.and_eq_false_iff] <;> tauto

/-- Settles O11: the stated outcome is the answer to an illegal command. -/
theorem illegalExactlyAsTheTableSays : Obligations.IllegalExactlyAsTheTableSays := exec_eq_respondIllegal_iff

/-! ### What the host reads (R70 to R74) -/

/-- Settles O19: the word is its three fields side by side. -/
theorem responseWordFields : Obligations.ResponseWordFields := by
  intro r
  have htcode := r.tcode.isLt
  have hseg := r.segIdx.isLt
  have hword : (r.status.code ++ r.segIdx ++ r.tcode).toNat
      = r.status.code.toNat * 2 ^ 24 + r.segIdx.toNat * 2 ^ 16 + r.tcode.toNat := by
    simp only [toNat_append_eq_add]
    omega
  refine ⟨r.status.code ++ r.segIdx ++ r.tcode, rfl, by omega, by omega, ?_⟩
  have hcode : (r.status.code ++ r.segIdx ++ r.tcode).toNat / 2 ^ 24 = r.status.code.toNat := by omega
  rw [hcode]
  cases r.status <;> rfl

theorem eventHead_toNat (kind cause : Byte) (tag : Tag) :
    (eventHead kind cause tag).toNat = kind.toNat * 2 ^ 24 + cause.toNat * 2 ^ 16 + tag.toNat := by
  simp only [eventHead, toNat_append_eq_add]
  omega

theorem eventSize_toNat (seg : Byte) (len : Len) : (eventSize seg len).toNat = seg.toNat * 2 ^ 16 + len.toNat := by
  simp only [eventSize, toNat_append_eq_add, BitVec.toNat_ofNat]
  omega

/-- Eight bytes are packed into two words of four. -/
theorem packWords_eight (data : Vector Byte 8) :
    ∃ d0 d1 : Word, packWords data.toList = [d0, d1] ∧
      ∀ k, k < 4 → lane d0 k = data.toList.getD k 0 ∧ lane d1 k = data.toList.getD (4 + k) 0 := by
  obtain ⟨d0, d1, hw⟩ : ∃ d0 d1, packWords data.toList = [d0, d1] :=
    List.length_eq_two.1 (by rw [packWords_length, Vector.length_toList])
  refine ⟨d0, d1, hw, fun k hk => ?_⟩
  rw [← byteOf_packWords, ← byteOf_packWords, hw, Nat.add_comm 4 k, byteOf_cons_add_four, byteOf_cons_of_lt _ _ hk,
    byteOf_cons_of_lt _ _ hk]
  exact ⟨rfl, rfl⟩

/-- Settles O20: `E0` and `E2` as numbers, and a frame's data lane by lane. -/
theorem eventWordFields : Obligations.EventWordFields := by
  refine ⟨fun tag key size data => ?frame, fun tag key size bytes => ?record, fun tag key cause size seg => ?rxError⟩
  case frame =>
    obtain ⟨d0, d1, hdata, hlanes⟩ := packWords_eight data
    refine ⟨_, _, d0, d1, congrArg (fun ws => _ :: _ :: _ :: ws) hdata, ?_, ?_, hlanes⟩
    · rw [eventHead_toNat]; rfl
    · rw [eventSize_toNat, BitVec.toNat_setWidth_of_le (by decide)]; exact Nat.zero_add _
  case record =>
    refine ⟨_, _, rfl, ?_, ?_⟩
    · rw [eventHead_toNat]; rfl
    · rw [eventSize_toNat]; exact Nat.zero_add _
  case rxError =>
    refine ⟨_, _, rfl, ?_, ?_⟩
    · rw [eventHead_toNat]; cases cause <;> rfl
    · rw [eventSize_toNat, BitVec.toNat_setWidth_of_le (by decide)]

end Sys2Proof.Machine
end

section
/-! PROOFS. The addressing codec: the bits of an identifier and of a key word, what undoes a composition, the bits a match
compares, and COMPOSE. -/

namespace Sys2Proof.Machine

/-! ### Identifiers (R80, R81) -/

theorem composeId_eq_shiftLeft_or (base : BaseAddr) (node : NodeId) :
    composeId base node = base.setWidth 29 <<< 8 ||| node.setWidth 29 := by
  rw [composeId, BitVec.append_def, BitVec.shiftLeftZeroExtend_eq, BitVec.setWidth'_eq]

@[simp] theorem baseOf_composeId (base : BaseAddr) (node : NodeId) : baseOf (composeId base node) = base :=
  BitVec.extractLsb'_append_eq_left

@[simp] theorem nodeOf_composeId (base : BaseAddr) (node : NodeId) : nodeOf (composeId base node) = node :=
  BitVec.extractLsb'_append_eq_right

/-- The two fields stand side by side and fill the identifier. -/
@[simp] theorem composeId_baseOf_nodeOf (id : Ident) : composeId (baseOf id) (nodeOf id) = id := by
  rw [composeId, baseOf, nodeOf, BitVec.extractLsb'_append_extractLsb'_eq_extractLsb' (by decide : 8 = 0 + 8), BitVec.extractLsb'_eq_self]

/-! ### Key words (R58, R80, R81) -/

/-- The flag at bit 30, the identifier below bit 29, and 0 at the reserved bits. -/
theorem getLsbD_keyOf (rtr : Bool) (id : Ident) (j : Nat) :
    (keyOf rtr id).getLsbD j = if j = 30 then rtr else id.getLsbD j := by
  simp only [keyOf, BitVec.getLsbD_append]
  obtain hj | rfl | rfl | hj : j < 29 ∨ j = 29 ∨ j = 30 ∨ 31 ≤ j := by omega
  · rw [if_pos hj, if_neg (by omega)]
  · simp
  · simp
  · have hid : id.getLsbD j = false := BitVec.getLsbD_of_ge id j (by omega)
    simp [hid, show ¬ j < 29 by omega, show j - 29 - 1 ≠ 0 by omega, show j ≠ 30 by omega]

theorem keyOf_eq_shiftLeft_or (rtr : Bool) (id : Ident) :
    keyOf rtr id = (BitVec.ofBool rtr).setWidth 32 <<< 30 ||| id.setWidth 32 := by
  refine BitVec.eq_of_getLsbD_eq fun j hj => ?_
  rw [getLsbD_keyOf, BitVec.getLsbD_or, BitVec.getLsbD_shiftLeft]
  obtain hlt | rfl | rfl : j < 30 ∨ j = 30 ∨ j = 31 := by omega
  · simp [hlt, hlt.ne, hj]
  · simp
  · simp

@[simp] theorem rtrOf_keyOf (rtr : Bool) (id : Ident) : rtrOf (keyOf rtr id) = rtr := getLsbD_keyOf rtr id 30

@[simp] theorem idOf_keyOf (rtr : Bool) (id : Ident) : idOf (keyOf rtr id) = id := BitVec.extractLsb'_append_eq_right

/-- A key word is its flag and its identifier where the bits that belong to neither are 0. -/
theorem keyOf_rtrOf_idOf {k : Word} (h : keyReserved k = false) : keyOf (rtrOf k) (idOf k) = k := by
  obtain ⟨h31, h29⟩ := Bool.or_eq_false_iff.1 h
  refine BitVec.eq_of_getLsbD_eq fun j hj => ?_
  rw [getLsbD_keyOf, rtrOf, idOf, BitVec.getLsbD_extractLsb', Nat.zero_add]
  obtain hlt | rfl | rfl | rfl : j < 29 ∨ j = 29 ∨ j = 30 ∨ j = 31 := by omega
  · rw [if_neg (by omega), decide_eq_true hlt, Bool.true_and]
  · exact h29.symm
  · rfl
  · exact h31.symm

/-- Settles O22: a concatenation is a shift and an or, and the flag's bit lies outside the identifier. -/
theorem identifierComposition : Obligations.IdentifierComposition :=
  fun base node rtr => ⟨composeId_eq_shiftLeft_or base node, keyOf_eq_shiftLeft_or rtr (composeId base node)⟩

/-- Settles O23: the fields of an identifier and of a key word are read back, and put together again. -/
theorem decompositionInvertsComposition : Obligations.DecompositionInvertsComposition :=
  ⟨fun b n => ⟨baseOf_composeId b n, nodeOf_composeId b n⟩,
    fun id => ⟨composeId_baseOf_nodeOf id, rfl, rfl⟩,
    fun _ => ⟨rfl, rfl⟩,
    fun r id => ⟨rtrOf_keyOf r id, idOf_keyOf r id, keyReserved_keyOf r id⟩,
    fun _ => keyOf_rtrOf_idOf⟩

/-! ### Match predicates (R83, R84) -/

/-- Two words agree under a mask exactly where they agree on its bits. -/
theorem and_eq_and_iff_getLsbD {n : Nat} (x y m : BitVec n) :
    x &&& m = y &&& m ↔ ∀ j, m.getLsbD j = true → x.getLsbD j = y.getLsbD j := by
  constructor
  · intro h j hj
    have hbit := congrArg (fun w => w.getLsbD j) h
    simpa [hj] using hbit
  · intro h
    refine BitVec.eq_of_getLsbD_eq fun j _ => ?_
    rw [BitVec.getLsbD_and, BitVec.getLsbD_and]
    cases hj : m.getLsbD j with
    | false => rw [Bool.and_false, Bool.and_false]
    | true => rw [h j hj]

theorem ExactEntry.hits_iff (e : ExactEntry) (k : Word) : e.hits k = true ↔ e.key = k := beq_iff_eq

theorem MaskedEntry.hits_iff (e : MaskedEntry) (k : Word) : e.hits k = true ↔ k &&& e.mask = e.base &&& e.mask := beq_iff_eq

/-- R25: a stored base has no bit outside its mask. -/
theorem MaskedEntry.base_and_mask {e : MaskedEntry} (h : e.wf = true) : e.base &&& e.mask = e.base := by
  simp only [MaskedEntry.wf, Bool.and_eq_true, beq_iff_eq] at h
  obtain ⟨⟨-, hnormal⟩, -⟩ := h
  exact hnormal

theorem MaskedEntry.hits_iff_of_wf {e : MaskedEntry} (h : e.wf = true) (k : Word) :
    e.hits k = true ↔ k &&& e.mask = e.base := by
  rw [MaskedEntry.hits_iff, MaskedEntry.base_and_mask h]

/-- The remote request of an identifier has another key than its data frame. -/
theorem keyOf_false_ne_keyOf_true (id : Ident) : keyOf false id ≠ keyOf true id := by
  intro h
  have hrtr := congrArg rtrOf h
  simp at hrtr

/-- Settles O24: equality of keys, agreement on the mask's bits, the normalised base, and the flag as part of the key. -/
theorem matchPredicates : Obligations.MatchPredicates := by
  refine ⟨ExactEntry.hits_iff, fun e k => ?maskBits, fun e k hwf => MaskedEntry.hits_iff_of_wf hwf k, fun e id hdata => ?remote⟩
  case maskBits => rw [MaskedEntry.hits_iff, and_eq_and_iff_getLsbD]
  case remote =>
    have hkey : e.key = keyOf false id := (ExactEntry.hits_iff e _).1 hdata
    rw [← Bool.not_eq_true, ExactEntry.hits_iff, hkey]
    exact keyOf_false_ne_keyOf_true id

/-! ### COMPOSE (R86) -/

theorem exec_compose (h : Header) (base : Word) (s : State) :
    exec (.compose h base) s =
      if h.rsv = 0 ∧ h.len = 0 ∧ base.toNat < 2 ^ 21 then
        .next (respond .ok 0 0 (some (composeKey (base.setWidth 21) h.node h.rtr)) s)
      else .next (respondIllegal s) := by
  have htest : (h.rsv ≠ 0 ∨ h.len ≠ 0 ∨ baseReserved base ≠ 0) ↔ ¬ (h.rsv = 0 ∧ h.len = 0 ∧ base.toNat < 2 ^ 21) := by
    rw [← baseReserved_eq_zero_iff]
    tauto
  rw [exec, execCompose, baseField_eq_setWidth, if_congr htest rfl rfl, ite_not]

/-- Settles O26: the row of opcode 1 has one operand word, and the meaning answers by its one test. -/
theorem composeCommand : Obligations.ComposeCommand := by
  refine ⟨fun w0 w1 rest hopc => ?words, fun h base s => ⟨fun hrsv hlen hbase => ?legal, fun hbad => ?illegal⟩⟩
  case words => exact decode_known (o := .compose) (ops := [w1]) rest (ofCode_eq_some_iff.2 hopc.symm) rfl
  case legal => exact (exec_compose h base s).trans (if_pos ⟨hrsv, hlen, hbase⟩)
  case illegal =>
    have hillegal : ¬ (h.rsv = 0 ∧ h.len = 0 ∧ base.toNat < 2 ^ 21) := by grind
    exact (exec_compose h base s).trans (if_neg hillegal)

end Sys2Proof.Machine
end

section
/-! PROOFS. The segmenter: its arithmetic, the bytes of its frames, the three send commands and their answers, and that every
frame the block sends is extended. -/

namespace Sys2Proof.Machine

/-! ### Segments (R88, R89) -/

theorem nseg_of_single {size : Nat} (h : size ≤ 8) : nseg size = 1 := if_pos h

theorem nseg_of_multi {size : Nat} (h : 8 < size) : nseg size = (size + 6) / 7 := if_neg (Nat.not_le.2 h)

/-- A segment's index fits in its index byte (R63). -/
theorem nseg_le_maxSegments {size : Nat} (h : size ≤ 1792) : nseg size ≤ 256 := by
  rcases Nat.lt_or_ge 8 size with hm | hs
  · rw [nseg_of_multi hm]; omega
  · rw [nseg_of_single hs]; decide

/-- A segment carries seven bytes, or what is left of the record. -/
theorem segLen_of_lt_nseg {size i : Nat} (h : 8 < size) (hi : i < nseg size) : segLen size i = min 7 (size - 7 * i) := by
  rw [nseg_of_multi h] at hi
  simp only [segLen, segPayload, nseg_of_multi h]
  split <;> omega

/-- Settles O27: the count is a rounded-up quotient, which the bounds on the size bound. -/
theorem segmentCount : Obligations.SegmentCount := by
  intro size _ hmax
  refine ⟨rfl, fun hmulti => ?bounds, rfl, rfl, fun hlast => ?last⟩
  case bounds => exact ⟨by rw [nseg_of_multi hmulti]; omega, nseg_le_maxSegments hmax⟩
  case last => rw [nseg_of_multi (by omega)]; omega

/-- Settles O28: each clause is the length of a segment as what is left of the record, seven at most. -/
theorem segmentsTileTheRecord : Obligations.SegmentsTileTheRecord := by
  intro size hmulti _
  have hcount := nseg_of_multi hmulti
  refine ⟨fun i hi => ?full, if_neg (Nat.lt_irrefl _), fun i hi => ?covers, fun k hk => ?offset⟩
  case full => rw [segLen_of_lt_nseg hmulti (by omega)]; omega
  case covers => rw [segLen_of_lt_nseg hmulti hi]; omega
  case offset =>
    have hquot : k / 7 < nseg size := by omega
    rw [segLen_of_lt_nseg hmulti hquot]
    omega

/-! ### The bytes of frames (R90, R91) -/

/-- Data given by a function that is 0 past the eight bytes reads as that function. -/
theorem Frame.byte_of_dataOf {f : Frame} {g : Nat → Byte} (hf : f.data = dataOf g) (hg : ∀ k, 8 ≤ k → g k = 0) :
    ∀ k, f.byte k = g k := by
  intro k
  rw [Frame.byte, hf]
  rcases Nat.lt_or_ge k 8 with hk | hk
  · exact dataOf_getD g hk
  · rw [hg k hk]
    exact List.getD_eq_default _ _ (by simpa using hk)

theorem frameOf_single (id : Ident) {size : Nat} (record : List Byte) (i : Nat) (h : size ≤ 8) :
    frameOf id size record i = singleFrame id size record := if_pos h

theorem frameOf_multi (id : Ident) {size : Nat} (record : List Byte) (i : Nat) (h : 8 < size) :
    frameOf id size record i = segFrame id size record i := if_neg (Nat.not_le.2 h)

/-- R99. -/
theorem frameOf_ext (id : Ident) (size : Nat) (record : List Byte) (i : Nat) : (frameOf id size record i).ext = true := by
  unfold frameOf
  split <;> rfl

section frames

variable (id : Ident) {size : Nat} (record : List Byte)

theorem singleFrame_size (h : size ≤ 8) : (singleFrame id size record).size.toNat = size :=
  Nat.mod_eq_of_lt (by omega)

theorem singleFrame_byte (h : size ≤ 8) :
    ∀ k, (singleFrame id size record).byte k = if k < size then record.getD k 0 else 0 :=
  Frame.byte_of_dataOf rfl fun _ _ => if_neg (by omega)

variable {i : Nat} (hmulti : 8 < size) (hi : i < nseg size)
include hmulti hi

theorem segFrame_size : (segFrame id size record i).size.toNat = segLen size i + 1 := by
  have hlen := segLen_of_lt_nseg hmulti hi
  exact Nat.mod_eq_of_lt (by omega)

theorem segFrame_byte :
    ∀ k, (segFrame id size record i).byte k =
      if k = 0 then BitVec.ofNat 8 i else if k < segLen size i + 1 then record.getD (7 * i + (k - 1)) 0 else 0 := by
  have hlen := segLen_of_lt_nseg hmulti hi
  refine Frame.byte_of_dataOf rfl fun k hk => ?_
  rw [if_neg (by omega), if_neg (by omega)]

theorem segFrame_index (hmax : size ≤ 1792) : ((segFrame id size record i).byte 0).toNat = i := by
  have hcount := nseg_le_maxSegments hmax
  rw [segFrame_byte id record hmulti hi]
  exact Nat.mod_eq_of_lt (by omega)

theorem segFrame_payload {j : Nat} (hj : j < segLen size i) :
    (segFrame id size record i).byte (1 + j) = record.getD (7 * i + j) 0 := by
  rw [segFrame_byte id record hmulti hi, if_neg (by omega), if_pos (by omega), Nat.add_sub_cancel_left]

end frames

/-- Settles O29: the size fits its field, and each byte is given by its position. -/
theorem singleFrameLayout : Obligations.SingleFrameLayout := by
  intro id size record _ hsingle _
  rw [frameOf_single id record 0 hsingle]
  have hbyte := singleFrame_byte id record hsingle
  exact ⟨rfl, rfl, rfl, singleFrame_size id record hsingle, fun k hk => (hbyte k).trans (if_pos hk),
    fun k hk => (hbyte k).trans (if_neg (Nat.not_lt.2 hk))⟩

/-- Settles O30: the size fits its field and the index its byte, and each byte is given by its position. -/
theorem segmentFrameLayout : Obligations.SegmentFrameLayout := by
  intro id size record i hmulti hmax _ hi
  rw [frameOf_multi id record i hmulti]
  refine ⟨rfl, rfl, rfl, segFrame_size id record hmulti hi, segFrame_index id record hmulti hi hmax,
    fun j hj => segFrame_payload id record hmulti hi hj, fun k hk => ?past⟩
  case past => rw [segFrame_byte id record hmulti hi, if_neg (by omega), if_neg (by omega)]

/-! ### First steps and answers of the send commands -/

/-- CMD's turn takes the answer that stands for its offer (R128, R129). -/
theorem cmdMove_of_answer {s : State} {a : TRes} (hbusy : s.cmd ≠ .idle) (hresp : s.resp = none) (ha : s.answer = some a) :
    cmdMove s = .next (takeAnswer a (s.withAnswer none)) := by
  simp [cmdMove, State.responseValid, hresp, (State.busy_iff s).2 hbusy, ha]

/-- Where the table of R69 calls a command illegal, its first step is that answer. -/
theorem exec_of_not_legal {i : Instr} (s : State) (h : ¬ i.legal = true) : exec i s = .next (respondIllegal s) :=
  (exec_eq_respondIllegal_iff i s).2 (Bool.eq_false_of_not_eq_true h)

theorem idReserved_eq_zero_iff (w : Word) : idReserved w = 0 ↔ w.toNat < 2 ^ 29 := extractLsb'_high_eq_zero_iff w rfl

theorem idField_eq_setWidth (w : Word) : idField w = w.setWidth 29 := (BitVec.setWidth_eq_extractLsb' (by decide)).symm

theorem takeAnswer_sendRecord {s : State} {id : Ident} {size : Len} {n i : Nat} {record : List Byte} {f : Frame}
    (h : s.cmd = .txWait .sendRecord id size n i record f) (a : TRes) :
    takeAnswer a s = answerSendRecord id size n i record a s := by
  simp only [takeAnswer, h]

/-- R95: a failure ends the command, whichever its segment. -/
theorem answerSendRecord_fail (id : Ident) (size : Len) (n i : Nat) (record : List Byte) (code : TCode) (s : State) :
    answerSendRecord id size n i record (.fail code) s = finish i (.fail code) s := by
  simp [answerSendRecord]

/-- SEND_FRAME and SEND_QUERY offer one frame: any answer ends them (R97, R98). -/
theorem takeAnswer_oneFrame {s : State} {op : SendOp} {id : Ident} {size : Len} {n i : Nat} {record : List Byte} {f : Frame}
    (h : s.cmd = .txWait op id size n i record f) (hop : op ≠ .sendRecord) (a : TRes) : takeAnswer a s = finish 0 a s := by
  cases op with
  | sendFrame => simp only [takeAnswer, h, answerSendFrame]
  | sendQuery => simp only [takeAnswer, h, answerSendQuery]
  | sendRecord => exact absurd rfl hop

/-! ### SEND_RECORD (R93 to R95) -/

/-- Settles O32: the row of opcode 3 has the base word and the data words, and the command is offered where it is legal. -/
theorem sendRecordCommand : Obligations.SendRecordCommand := by
  refine ⟨fun w0 w1 data rest hopc hlen => ?words, fun h base data s _ =>
    ⟨fun hrtr hrsv hlo hhi hbase => ⟨bytesOf data h.len.toNat, _, bytesOf_length _ _, fun k hk => ?byte, rfl, ?legal⟩,
      fun hbad => ?illegal⟩⟩
  case words =>
    refine decode_known (o := .sendRecord) (ops := w1 :: data) rest (ofCode_eq_some_iff.2 hopc.symm) ?_
    rw [List.length_cons, hlen, Nat.add_comm]
    rfl
  case byte => simp [bytesOf, hk, byteOf, lane]
  case legal =>
    have hlegal := (legal_sendRecord_iff h base data).2 ⟨hrsv, hrtr, ⟨hlo, hhi⟩, hbase⟩
    exact exec_sendRecord_of_legal s hlegal
  case illegal =>
    refine exec_of_not_legal s fun hlegal => ?_
    obtain ⟨hrsv, hrtr, ⟨hlo, hhi⟩, hbase⟩ := (legal_sendRecord_iff h base data).1 hlegal
    grind

/-- Settles O33: the answer rule's one test is whether the answer is OK and a segment is left. -/
theorem sendRecordAnswers : Obligations.SendRecordAnswers := by
  intro s id size n i record f a hcmd hresp ha
  have hmove : move .cmd s = .next (answerSendRecord id size n i record a (s.withAnswer none)) :=
    (cmdMove_of_answer (by simp [hcmd]) hresp ha).trans (congrArg _ (takeAnswer_sendRecord (s := s.withAnswer none) hcmd a))
  rw [hmove]
  refine ⟨fun code hcode => ?failed, fun hok hlast => ?last, fun hok hleft => ?another⟩
  case failed => rw [hcode, answerSendRecord_fail]; rfl
  case last => subst hok; exact congrArg _ (if_neg (by simp [hlast]))
  case another => exact congrArg _ (if_pos ⟨hok, hleft⟩)

theorem takeAnswer_fail_sending (s : State) (id : Ident) (size : Len) (record : List Byte) (i : Nat) (code : TCode) :
    takeAnswer (.fail code) (s.sending id size record i) = finish i (.fail code) (s.sending id size record i) :=
  (takeAnswer_sendRecord rfl _).trans (answerSendRecord_fail ..)

/-- The offers made while CMD waits for segment `i` are the first `i + 1` frames of the record. -/
theorem framesOf_take (id : Ident) (size : Nat) (record : List Byte) {i : Nat} (hi : i < nseg size) :
    (framesOf id size record).take (i + 1) = (List.range (i + 1)).map (frameOf id size record) := by
  rw [framesOf, ← List.map_take, List.take_range, Nat.min_eq_left hi]

/-- Settles O35: `k` OKs lead to the offer of segment `k`, and the failure ends the command there. -/
theorem sendRecordStopsAtTheFirstFailure : Obligations.SendRecordStopsAtTheFirstFailure := by
  intro h base data s k code hwf hk
  have hlegal : (Instr.sendRecord h base data).legal = true := (Bool.and_eq_true_iff.1 hwf).2
  refine ⟨_, exec_sendRecord_of_legal s hlegal, ?_⟩
  rw [answerAll_concat, answerAll_ok_sending _ _ _ _ k hk, takeAnswer_fail_sending, framesOf_take _ _ _ hk]
  rfl

/-! ### SEND_QUERY (R97) -/

theorem legal_sendQuery_iff (h : Header) (base : Word) :
    (Instr.sendQuery h base).legal = true ↔ h.rsv = 0 ∧ h.rtr = false ∧ h.len = 0 ∧ base.toNat < 2 ^ 21 := by
  rw [instr_legal_iff]
  simp [Instr.header, Instr.fieldRule, Instr.operandsOk, baseWordOk, ← BitVec.toNat_inj]

theorem exec_sendQuery_of_legal {h : Header} {base : Word} (s : State) (hl : (Instr.sendQuery h base).legal = true) :
    exec (.sendQuery h base) s
      = .next (txSend .sendQuery 0 0 0 0 [] (queryFrame (composeId (base.setWidth 21) h.node)) s) := by
  obtain ⟨hrsv, hrtr, hlen, hbase⟩ := (legal_sendQuery_iff h base).1 hl
  rw [exec, execSendQuery, baseField_eq_setWidth]
  exact if_neg (by simp [hrsv, hrtr, hlen, (baseReserved_eq_zero_iff base).2 hbase])

/-- Settles O36: the row of opcode 4 has one operand word, a legal command offers the query frame, and its answer ends it. -/
theorem sendQueryCommand : Obligations.SendQueryCommand := by
  refine ⟨fun w0 w1 rest hopc => ?words, fun h base s => ⟨fun hrtr hrsv hlen hbase => ?legal, fun hbad => ?illegal⟩,
    fun s f a hcmd hresp ha => ?answer⟩
  case words => exact decode_known (o := .sendQuery) (ops := [w1]) rest (ofCode_eq_some_iff.2 hopc.symm) rfl
  case legal =>
    have hlegal := (legal_sendQuery_iff h base).2 ⟨hrsv, hrtr, hlen, hbase⟩
    exact ⟨queryFrame _, rfl, rfl, rfl, rfl, Frame.byte_of_dataOf rfl fun _ _ => rfl, exec_sendQuery_of_legal s hlegal⟩
  case illegal =>
    refine exec_of_not_legal s fun hlegal => ?_
    obtain ⟨hrsv, hrtr, hlen, hbase⟩ := (legal_sendQuery_iff h base).1 hlegal
    grind
  case answer =>
    refine (cmdMove_of_answer (by simp [hcmd]) hresp ha).trans (congrArg _ ?_)
    rw [takeAnswer_oneFrame (s := s.withAnswer none) hcmd (by decide)]
    cases a <;> rfl

/-! ### SEND_FRAME (R98) -/

theorem legal_sendFrame_iff (h : Header) (id data0 data1 : Word) :
    (Instr.sendFrame h id data0 data1).legal = true ↔
      h.rsv = 0 ∧ h.node = 0 ∧ h.len.toNat ≤ 8 ∧ id.toNat < 2 ^ 29 := by
  rw [instr_legal_iff]
  simp [Instr.header, Instr.fieldRule, Instr.operandsOk, idWordOk]

theorem exec_sendFrame_of_legal {h : Header} {id data0 data1 : Word} (s : State)
    (hl : (Instr.sendFrame h id data0 data1).legal = true) :
    exec (.sendFrame h id data0 data1) s
      = .next (txSend .sendFrame 0 0 0 0 [] (rawFrame h.rtr (id.setWidth 29) h.len data0 data1) s) := by
  obtain ⟨hrsv, hnode, hlen, hid⟩ := (legal_sendFrame_iff h id data0 data1).1 hl
  rw [exec, execSendFrame, idField_eq_setWidth]
  exact if_neg (by simp [hrsv, hnode, Nat.not_lt.2 hlen, (idReserved_eq_zero_iff id).2 hid])

section rawFrame

variable (rtr : Bool) (id : Ident) {size : Len} (data0 data1 : Word) (h : size.toNat ≤ 8)
include h

theorem rawFrame_size : (rawFrame rtr id size data0 data1).size.toNat = size.toNat := by
  rw [rawFrame, BitVec.toNat_setWidth]
  exact Nat.mod_eq_of_lt (by omega)

theorem rawFrame_byte :
    ∀ k, (rawFrame rtr id size data0 data1).byte k = if k < size.toNat then byteOf [data0, data1] k else 0 :=
  Frame.byte_of_dataOf rfl fun _ _ => if_neg (by omega)

end rawFrame

/-- Bytes 0 to 3 are the lanes of the first word, bytes 4 to 7 those of the second (R43). -/
theorem byteOf_pair (w0 w1 : Word) {k : Nat} (hk : k < 8) :
    byteOf [w0, w1] k = (if k < 4 then w0 else w1).extractLsb' (8 * (k % 4)) 8 := by
  rcases Nat.lt_or_ge k 4 with hlt | hge
  · rw [byteOf_cons_of_lt _ _ hlt, if_pos hlt, Nat.mod_eq_of_lt hlt, lane]
  · obtain ⟨k, rfl⟩ := Nat.exists_eq_add_of_le' hge
    have hlt : k < 4 := by omega
    rw [byteOf_cons_add_four, byteOf_cons_of_lt _ _ hlt, if_neg (by omega), Nat.add_mod_right, Nat.mod_eq_of_lt hlt, lane]

/-- Settles O37: the row of opcode 2 has three operand words, a legal command offers its frame, and its answer ends it. -/
theorem sendFrameCommand : Obligations.SendFrameCommand := by
  refine ⟨fun w0 w1 w2 w3 rest hopc => ?words,
    fun h id data0 data1 s => ⟨fun hnode hrsv hlen hid => ?legal, fun hbad => ?illegal⟩, fun s f a hcmd hresp ha => ?answer⟩
  case words => exact decode_known (o := .sendFrame) (ops := [w1, w2, w3]) rest (ofCode_eq_some_iff.2 hopc.symm) rfl
  case legal =>
    have hlegal := (legal_sendFrame_iff h id data0 data1).2 ⟨hrsv, hnode, hlen, hid⟩
    have hbyte := rawFrame_byte h.rtr (id.setWidth 29) data0 data1 hlen
    refine ⟨rawFrame h.rtr (id.setWidth 29) h.len data0 data1, rfl, rfl, rfl, rawFrame_size _ _ _ _ hlen, fun k hk => ?_,
      fun k hk => (hbyte k).trans (if_neg (Nat.not_lt.2 hk)), exec_sendFrame_of_legal s hlegal⟩
    rw [hbyte, if_pos hk, byteOf_pair _ _ (by omega)]
  case illegal =>
    refine exec_of_not_legal s fun hlegal => ?_
    obtain ⟨hrsv, hnode, hlen, hid⟩ := (legal_sendFrame_iff h id data0 data1).1 hlegal
    grind
  case answer =>
    refine (cmdMove_of_answer (by simp [hcmd]) hresp ha).trans (congrArg _ ?_)
    rw [takeAnswer_oneFrame (s := s.withAnswer none) hcmd (by decide)]
    cases a <;> rfl

/-! ### Every offer on the TX port (R99) -/

/-- From `s` to `t` nothing was offered on the TX port, or one extended frame. -/
def OffersExtended (s t : State) : Prop := t.txLog = s.txLog ∨ ∃ f, t.txLog = s.txLog ++ [f] ∧ f.ext = true

theorem OffersExtended.nothing {s t : State} (h : t.txLog = s.txLog) : OffersExtended s t := .inl h

theorem OffersExtended.txSend (s : State) {f : Frame} (hf : f.ext = true) (op : SendOp) (id : Ident) (size : Len) (n i : Nat)
    (r : List Byte) : OffersExtended s (txSend op id size n i r f s) := .inr ⟨f, rfl, hf⟩

theorem leaves_ite {P : State → Prop} {c : Prop} [Decidable c] {r r' : Result} (h : Leaves P r) (h' : Leaves P r') :
    Leaves P (if c then r else r') := by
  split
  · exact h
  · exact h'

/-- The three send commands offer a frame, where they are legal; no other command's first step does. -/
theorem exec_offersExtended (i : Instr) (s : State) : Leaves (OffersExtended s) (exec i s) := by
  have nothing : ∀ {t : State}, t.txLog = s.txLog → Leaves (OffersExtended s) (.next t) := fun h => leaves_next.2 (.nothing h)
  have onTest : ∀ {c : Prop} [Decidable c] {t : State}, OffersExtended s t →
      Leaves (OffersExtended s) (if c then .next (respondIllegal s) else .next t) :=
    fun h => leaves_ite (nothing rfl) (leaves_next.2 h)
  cases i with
  | compose | remove | removeMasked | openChannel | closeChannel => exact onTest (OffersExtended.nothing rfl)
  | sendFrame | sendQuery => exact onTest (OffersExtended.txSend s rfl _ _ _ _ _ _)
  | sendRecord => exact onTest (OffersExtended.txSend s (frameOf_ext _ _ _ _) _ _ _ _ _ _)
  | register | registerMasked =>
    exact leaves_ite (nothing rfl) (leaves_ite (nothing rfl) (leaves_ite (nothing rfl) (nothing rfl)))

theorem cmdMove_offersExtended (s : State) : Leaves (OffersExtended s) (cmdMove s) := by
  rcases cmdMove_shape s with h | ⟨_, a, _, h⟩ | ⟨_, _, h⟩ <;> rw [h]
  · exact leaves_next.2 (.nothing rfl)
  · refine leaves_next.2 ?_
    rcases takeAnswer_shape a (s.withAnswer none) with ⟨_, e⟩ | ⟨i, e⟩ | ⟨_, _, _, _, _, _, _, _, _, e⟩ <;> rw [e]
    · exact .nothing rfl
    · exact .nothing (finish_txLog i a _)
    · exact .inr ⟨_, rfl, frameOf_ext _ _ _ _⟩
  · rcases takeCommand_shape s with h | h | ⟨i, rest, _, h⟩ <;> rw [h]
    · exact leaves_next.2 (.nothing rfl)
    · exact leaves_next.2 (.nothing rfl)
    · exact exec_offersExtended i (s.withCmdPort rest)

theorem hostMove_txLog (a : HostAct) (s : State) : (hostMove a s).txLog = s.txLog := by
  rcases hostMove_shape a s with h | ⟨_, _, _, _, h⟩ | ⟨_, _, _, h⟩ | ⟨_, _, _, _, h⟩ | ⟨_, h⟩ <;> rw [h] <;> rfl

theorem rxeMove_txLog (s : State) : (rxeMove s).txLog = s.txLog := by
  rcases rxeMove_shape s with h | ⟨_, f, _, h⟩ <;> rw [h]
  obtain ⟨m, h | ⟨e, h⟩⟩ := receive_shape f (s.withRxPort none) <;> rw [h] <;> rfl

theorem transportMove_txLog (a : TransportAct) (s : State) : (transportMove a s).txLog = s.txLog := by
  rcases transportMove_shape a s with h | ⟨_, _, _, _, h⟩ | ⟨_, _, _, h⟩ <;> rw [h] <;> rfl

theorem move_offersExtended (m : Move) (s : State) : Leaves (OffersExtended s) (move m s) := by
  cases m with
  | host a => exact leaves_next.2 (.nothing (hostMove_txLog a s))
  | cmd => exact cmdMove_offersExtended s
  | rxe => exact leaves_next.2 (.nothing (rxeMove_txLog s))
  | transport a => exact leaves_next.2 (.nothing (transportMove_txLog a s))

/-- Settles O31: only CMD's turn offers a frame, and each of its offers is extended. -/
theorem everySentFrameIsExtended : Obligations.EverySentFrameIsExtended := by
  intro s t ht
  cases hs : s.script with
  | nil => rw [step_nil hs] at ht; exact leaves_next.2 (OffersExtended.nothing rfl) t ht
  | cons m ms => rw [step_cons hs] at ht; exact move_offersExtended m (s.withScript ms) t ht

end Sys2Proof.Machine
end

section
/-! PROOFS. The round trip: what the segmenter sends, the receive engine takes. A record of one frame comes back at once; of a
longer record CTX holds, between frames, exactly the segments that have come. -/

namespace Sys2Proof.Machine

theorem eq_of_forall_getD {l l' : List Byte} (hlen : l.length = l'.length)
    (h : ∀ k, k < l.length → l.getD k 0 = l'.getD k 0) : l = l' :=
  List.ext_getElem hlen fun k hk hk' => by rw [← List.getD_eq_getElem l 0 hk, ← List.getD_eq_getElem l' 0 hk', h k hk]

/-! ### A record of one frame (R90, R107) -/

theorem takeSelected_single {s : State} {f : Frame} {t : Target} (hr : f.rtr = false) (hlo : 1 ≤ t.len.toNat)
    (hhi : t.len.toNat ≤ 8) : takeSelected t f s = takeSingle t.len t.tag f s := by
  have hdata : ¬ (f.rtr = true ∨ t.len.toNat = 0) := by simp [hr]; omega
  exact (if_neg hdata).trans (if_pos hhi)

/-- The first bytes of the frame's data are the record (R90). -/
theorem singleFrame_take (id : Ident) {size : Nat} {record : List Byte} (h : size ≤ 8) (hlen : record.length = size) :
    (singleFrame id size record).data.toList.take size = record := by
  have htake : ((singleFrame id size record).data.toList.take size).length = size :=
    List.length_take_of_le (by simpa using h)
  refine eq_of_forall_getD (htake.trans hlen.symm) fun k hk => ?_
  have hk' : k < size := htake ▸ hk
  calc ((singleFrame id size record).data.toList.take size).getD k 0
      = (singleFrame id size record).byte k := by simp [Frame.byte, List.getD_eq_getElem?_getD, hk']
    _ = record.getD k 0 := by rw [singleFrame_byte id record h, if_pos hk']

/-- Settles O56: the frame takes the single-frame arm, whose event is the first bytes of its data. -/
theorem singleFrameRoundTrip : Obligations.SingleFrameRoundTrip := by
  intro s id len tag record hlo hhi hlen hsel
  have hsize : (singleFrame id len.toNat record).size.toNat = len.toNat := singleFrame_size id record hhi
  rw [frameOf_single id record 0 hhi, receive_selected rfl (hsize.trans_le hhi) hsel, takeSelected_single rfl hlo hhi]
  calc takeSingle len tag (singleFrame id len.toNat record) s
      = emit (.record tag (keyOf false id) len ((singleFrame id len.toNat record).data.toList.take len.toNat)) s :=
        if_pos hsize
    _ = emit (.record tag (keyOf false id) len record) s := by rw [singleFrame_take id hhi hlen]

/-! ### `CTX` after writes to one identifier -/

/-- Of two entries put under one key the second stays. -/
theorem putBy_putBy {α : Type} {key : α → Nat} {x y : α} (h : key y = key x) (l : List α) :
    putBy key y (putBy key x l) = putBy key y l := by
  induction l with
  | nil => simp [putBy, h]
  | cons z zs ih =>
    rcases lt_trichotomy (key x) (key z) with hlt | heq | hgt
    · simp [putBy, h, hlt]
    · simp [putBy, h, heq]
    · simp [putBy, h, hgt.not_gt, hgt.ne', ih]

/-- A filter that drops the key of an entry does not see it put. -/
theorem filter_putBy {α : Type} {key : α → Nat} {x : α} {p : α → Bool} (hp : ∀ y, key y = key x → p y = false) (l : List α) :
    (putBy key x l).filter p = l.filter p := by
  induction l with
  | nil => simp [putBy, hp x rfl]
  | cons z zs ih =>
    simp only [putBy]
    split
    · rw [List.filter_cons_of_neg (by simp [hp x rfl])]
    · split
      · rename_i heq
        rw [List.filter_cons_of_neg (by simp [hp x rfl]), List.filter_cons_of_neg (by simp [hp z heq.symm])]
      · rw [List.filter_cons, List.filter_cons, ih]

theorem Memory.put_put (m : Memory) {c d : Context} (h : d.id = c.id) :
    Memory.put (Memory.put m c) d = Memory.put m d :=
    putBy_putBy (key := fun c : Context => c.id.toNat) (congrArg BitVec.toNat h) m

theorem Memory.erase_put (m : Memory) (c : Context) : Memory.erase (Memory.put m c) c.id = Memory.erase m c.id :=
  filter_putBy (fun d hd => by simpa using BitVec.eq_of_toNat_eq hd) m

/-- R109 discards nothing where the context has the entry's size. -/
theorem Memory.dropOtherSize_eq_self {m : Memory} {id : Ident} {size : Len}
    (h : ∀ c, Memory.find m id = some c → c.size = size) : Memory.dropOtherSize m id size = m := by
  unfold Memory.dropOtherSize
  split
  · rename_i c hc
    exact if_neg fun hne => hne (h c hc)
  · rfl

theorem State.withCtx_eq_self {s : State} {m : Memory} (h : m = s.ctx) : s.withCtx m = s := h ▸ rfl

theorem takeIndexed_of_find {s : State} {f : Frame} {size : Len} {tag : Tag} {c : Context}
    (hi : (f.byte 0).toNat < nseg size.toNat) (hc : Memory.find s.ctx f.id = some c) :
    takeIndexed size tag f s = storeSegment tag f (f.byte 0).toNat c s := by
  simp only [takeIndexed, if_neg (Nat.not_le.2 hi), hc]

theorem takeIndexed_of_room {s : State} {f : Frame} {size : Len} {tag : Tag} (hi : (f.byte 0).toNat < nseg size.toNat)
    (hnone : Memory.find s.ctx f.id = none) (hroom : s.ctx.length < s.params.nctx) :
    takeIndexed size tag f s = storeSegment tag f (f.byte 0).toNat (newContext f.id size (nseg size.toNat)) s := by
  simp only [takeIndexed, if_neg (Nat.not_le.2 hi), hnone, if_neg (Nat.not_le.2 hroom)]

/-- A segment under an entry with the record's length reaches the indexed arms, and nothing is discarded before. -/
theorem receive_segFrame {s : State} (id : Ident) {size : Len} {tag : Tag} (record : List Byte) {i : Nat}
    (hmulti : 8 < size.toNat) (hi : i < nseg size.toNat)
    (hsel : select s.exact s.masked (keyOf false id) = some { len := size, tag := tag })
    (hsize : ∀ c, Memory.find s.ctx id = some c → c.size = size) :
    receive (segFrame id size.toNat record i) s = takeIndexed size tag (segFrame id size.toNat record i) s := by
  have hlen := segFrame_size id record hmulti hi
  have hseg := segLen_of_lt_nseg hmulti hi
  have hkept : s.withCtx (Memory.dropOtherSize s.ctx id size) = s :=
    State.withCtx_eq_self (Memory.dropOtherSize_eq_self hsize)
  have harm := receive_indexed (f := segFrame id size.toNat record i) (t := { len := size, tag := tag }) rfl rfl (by omega)
    (by omega) hsel hmulti
  exact harm.trans (congrArg (takeIndexed size tag _) hkept)

/-! ### A record of which some segments have come -/

/-- The context of a record of which the segments `got` have come, in any order: their bits, and their bytes. -/
def gathered (id : Ident) (size : Len) (record : List Byte) (got : List Nat) : Context where
  id := id
  size := size
  received := (List.range (nseg size.toNat)).map fun i => decide (i ∈ got)
  value := (List.range size.toNat).map fun off => if off / 7 ∈ got then record.getD off 0 else 0

section gathered

variable (id : Ident) (size : Len) (record : List Byte) (got : List Nat)

@[simp] theorem gathered_value_length : (gathered id size record got).value.length = size.toNat := by simp [gathered]

theorem gathered_value_getD {off : Nat} (h : off < size.toNat) :
    (gathered id size record got).value.getD off 0 = if off / 7 ∈ got then record.getD off 0 else 0 := by
  simp [gathered, List.getD_eq_getElem?_getD, h]

/-- Nothing has come: a new context (R111). -/
theorem gathered_nil : gathered id size record [] = newContext id size (nseg size.toNat) := by
  simp [gathered, newContext, clearBits]

theorem gathered_full_iff :
    allSet (gathered id size record got).received = true ↔ ∀ i, i < nseg size.toNat → i ∈ got := by
  simp [gathered, allSet]

/-- Fewer segments than the record has cannot be all of them. -/
theorem gathered_not_full (h : got.length < nseg size.toNat) : allSet (gathered id size record got).received = false := by
  rw [← Bool.not_eq_true, gathered_full_iff]
  intro hall
  have hsub : List.range (nseg size.toNat) ⊆ got := fun i hi => hall i (List.mem_range.1 hi)
  have hle := (List.subperm_of_subset List.nodup_range hsub).length_le
  rw [List.length_range] at hle
  omega

variable {id size record got} (hmulti : 8 < size.toNat)
include hmulti

/-- Once all segments have come the buffer is the record (R113). -/
theorem gathered_value_of_all (hlen : record.length = size.toNat) (hall : ∀ i, i < nseg size.toNat → i ∈ got) :
    (gathered id size record got).value = record := by
  refine eq_of_forall_getD (by rw [gathered_value_length, hlen]) fun off hoff => ?_
  rw [gathered_value_length] at hoff
  have hquot : off / 7 < nseg size.toNat := by rw [nseg_of_multi hmulti]; omega
  rw [gathered_value_getD id size record got hoff, if_pos (hall _ hquot)]

variable {i : Nat} (hi : i < nseg size.toNat)
include hi

theorem gathered_accept_value :
    ((gathered id size record got).accept (segFrame id size.toNat record i) i).value
      = (gathered id size record (got ++ [i])).value := by
  have hseg := segLen_of_lt_nseg hmulti hi
  have hsize := segFrame_size id record hmulti hi
  refine eq_of_forall_getD (by simp) fun off hoff => ?_
  rw [Context.accept_value_length, gathered_value_length] at hoff
  rw [accept_value_getD (by omega), gathered_value_length, gathered_value_getD _ _ _ _ hoff, gathered_value_getD _ _ _ _ hoff]
  have hsz : (gathered id size record got).size = size := rfl
  by_cases hin : off / 7 = i
  · have hpayload := segFrame_payload id record hmulti hi (j := off - 7 * i) (by omega)
    rw [if_pos (by rw [hsz]; omega), if_pos (by simp [hin]), hpayload, Nat.add_sub_cancel' (by omega)]
  · rw [if_neg (by rw [hsz]; omega)]
    simp [hin]

/-- Taking segment `i` adds exactly its bit and its bytes (R112). -/
theorem gathered_accept :
    (gathered id size record got).accept (segFrame id size.toNat record i) i = gathered id size record (got ++ [i]) := by
  have hbits : setBit (gathered id size record got).received i = (gathered id size record (got ++ [i])).received := by
    refine List.ext_getElem (by simp [gathered]) fun j _ _ => ?_
    by_cases hj : i = j
    · simp [setBit, gathered, hj]
    · simp [setBit, gathered, List.getElem_set_ne hj, Ne.symm hj]
  have hvalue := gathered_accept_value (id := id) (record := record) (got := got) hmulti hi
  exact Context.mk.injEq .. |>.mpr ⟨rfl, rfl, hbits, hvalue⟩

end gathered

/-! ### Frames one after another (R96, R118 (a)) -/

/-- The state between the segments `got` of a record and the next: their context stands beside those of `s`. -/
def State.gathering (s : State) (id : Ident) (size : Len) (record : List Byte) (got : List Nat) : State :=
  if got = [] then s else s.withCtx (Memory.put s.ctx (gathered id size record got))

/-- What R96 asks of the receiver: an entry with the record's length selects its frames, and its identifier has no context but
room for one. -/
structure Awaits (s : State) (id : Ident) (size : Len) (tag : Tag) (record : List Byte) : Prop where
  wf : s.wf = true
  multi : 8 < size.toNat
  size_le : size.toNat ≤ 1792
  length : record.length = size.toNat
  selected : select s.exact s.masked (keyOf false id) = some { len := size, tag := tag }
  absent : Memory.find s.ctx id = none
  room : s.ctx.length < s.params.nctx

section gathering

variable (s : State) (id : Ident) (size : Len) (record : List Byte) (got : List Nat)

theorem State.gathering_nil : s.gathering id size record [] = s := if_pos rfl

theorem State.gathering_of_ne_nil {got : List Nat} (h : got ≠ []) :
    s.gathering id size record got = s.withCtx (Memory.put s.ctx (gathered id size record got)) := if_neg h

theorem State.gathering_outq : (s.gathering id size record got).outq = s.outq := by
  unfold State.gathering; split <;> rfl

theorem State.gathering_exact : (s.gathering id size record got).exact = s.exact := by
  unfold State.gathering; split <;> rfl

theorem State.gathering_masked : (s.gathering id size record got).masked = s.masked := by
  unfold State.gathering; split <;> rfl

/-- The record's context is all that the gathering writes. -/
theorem State.gathering_withCtx (m : Memory) : (s.gathering id size record got).withCtx m = s.withCtx m := by
  unfold State.gathering; split <;> rfl

theorem State.gathering_put {c : Context} (hc : c.id = id) :
    Memory.put (s.gathering id size record got).ctx c = Memory.put s.ctx c := by
  unfold State.gathering
  split
  · rfl
  · exact Memory.put_put s.ctx hc

theorem State.gathering_erase (h : Memory.find s.ctx id = none) :
    Memory.erase (s.gathering id size record got).ctx id = s.ctx := by
  refine Eq.trans ?_ (Memory.erase_of_find_none h)
  unfold State.gathering
  split
  · rfl
  · exact Memory.erase_put s.ctx (gathered id size record got)

end gathering

theorem receiveAll_concat (fs : List Frame) (f : Frame) (s : State) :
    receiveAll (fs ++ [f]) s = receive f (receiveAll fs s) := by
  simp [receiveAll]

namespace Awaits

variable {s : State} {id : Ident} {size : Len} {tag : Tag} {record : List Byte} (h : Awaits s id size tag record)
  (got : List Nat)
include h

theorem find_gathering :
    Memory.find (s.gathering id size record got).ctx id = if got = [] then none else some (gathered id size record got) := by
  unfold State.gathering
  split
  · exact h.absent
  · exact Memory.find_put_self (c := gathered id size record got) ((Memory.wf_iff s.ctx).1 (State.wf_ctx h.wf)).1

theorem gathering_selected :
    select (s.gathering id size record got).exact (s.gathering id size record got).masked (keyOf false id)
      = some { len := size, tag := tag } := by
  rw [State.gathering_exact, State.gathering_masked, h.selected]

theorem gathering_sameSize (c : Context) (hc : Memory.find (s.gathering id size record got).ctx id = some c) :
    c.size = size := by
  rw [h.find_gathering got] at hc
  split at hc
  · cases hc
  · obtain rfl := Option.some.inj hc
    rfl

variable {i : Nat} (hi : i < nseg size.toNat)
include hi

/-- A segment is written into the context of those that came before it, the first into a new one. -/
theorem receive_segment :
    receive (segFrame id size.toNat record i) (s.gathering id size record got)
      = storeSegment tag (segFrame id size.toNat record i) i (gathered id size record got)
          (s.gathering id size record got) := by
  rw [receive_segFrame id record h.multi hi (h.gathering_selected got) (h.gathering_sameSize got)]
  have hidx := segFrame_index id record h.multi hi h.size_le
  have hrange : ((segFrame id size.toNat record i).byte 0).toNat < nseg size.toNat := hidx.trans_lt hi
  by_cases hgot : got = []
  · subst hgot
    have hroom := takeIndexed_of_room (tag := tag) hrange h.absent h.room
    rw [State.gathering_nil, gathered_nil, hroom, hidx]
    rfl
  · have hfind := h.find_gathering got
    rw [if_neg hgot] at hfind
    have hstored := takeIndexed_of_find (tag := tag) hrange hfind
    rw [hstored, hidx]

/-- While segments are left a segment joins those that came before it. -/
theorem receive_another (hleft : (got ++ [i]).length < nseg size.toNat) :
    receive (segFrame id size.toNat record i) (s.gathering id size record got)
      = s.gathering id size record (got ++ [i]) := by
  have hpart := gathered_not_full id size record _ hleft
  rw [← gathered_accept h.multi hi] at hpart
  rw [h.receive_segment got hi, State.gathering_of_ne_nil s id size record (got := got ++ [i]) (by simp),
    ← gathered_accept h.multi hi]
  rcases storeSegment_shape tag (segFrame id size.toNat record i) i (gathered id size record got)
    (s.gathering id size record got) with ⟨hfull, _⟩ | ⟨_, e⟩
  · exact absurd hfull (by simpa using hpart)
  · rw [e, State.gathering_put _ _ _ _ _ (by rfl), State.gathering_withCtx]

/-- The last segment to come delivers the record and frees the context (R113). -/
theorem receive_last (hall : ∀ j, j < nseg size.toNat → j ∈ got ++ [i]) :
    receive (segFrame id size.toNat record i) (s.gathering id size record got)
      = emit (.record tag (keyOf false id) size record) s := by
  have hfull := (gathered_full_iff id size record (got ++ [i])).2 hall
  have hvalue := gathered_value_of_all (id := id) h.multi h.length hall
  rw [← gathered_accept h.multi hi] at hfull hvalue
  rw [h.receive_segment got hi]
  rcases storeSegment_shape tag (segFrame id size.toNat record i) i (gathered id size record got)
    (s.gathering id size record got) with ⟨_, e⟩ | ⟨hpart, _⟩
  · rw [e, hvalue, State.gathering_withCtx]
    exact congrArg (fun m => emit _ (s.withCtx m)) (State.gathering_erase s id size record got h.absent)
  · exact absurd hpart (by simpa using hfull)

end Awaits

/-- Fewer segments than the record has, one after another, are gathered. -/
theorem Awaits.receiveAll_gathering {s : State} {id : Ident} {size : Len} {tag : Tag} {record : List Byte}
    (h : Awaits s id size tag record) (got : List Nat) (hgot : ∀ i ∈ got, i < nseg size.toNat)
    (hleft : got.length < nseg size.toNat) :
    receiveAll (got.map (segFrame id size.toNat record)) s = s.gathering id size record got := by
  induction got using List.reverseRecOn with
  | nil => exact (State.gathering_nil s id size record).symm
  | append_singleton got i ih =>
    have hprefix := ih (fun j hj => hgot j (List.mem_append_left _ hj)) (by rw [List.length_append] at hleft; omega)
    rw [List.map_append, List.map_singleton, receiveAll_concat, hprefix]
    exact h.receive_another got (hgot i (by simp)) hleft

/-- Settles O57: all segments but the last of the order are gathered, with no event, and the last one delivers the record. -/
theorem reassemblyInAnyOrder : Obligations.ReassemblyInAnyOrder := by
  intro s id size tag record order hwf hmulti hmax hlen hsel hfind hroom hperm
  have h : Awaits s id size tag record := ⟨hwf, hmulti, hmax, hlen, hsel, hfind, hroom⟩
  have hmem : ∀ i, i ∈ order ↔ i < nseg size.toNat := fun i => hperm.mem_iff.trans List.mem_range
  have hcount : order.length = nseg size.toNat := hperm.length_eq.trans List.length_range
  have hframes : frameOf id size.toNat record = segFrame id size.toNat record :=
    funext fun i => frameOf_multi id record i hmulti
  rw [hframes]
  refine ⟨fun k hk => ?noEvent, ?record⟩
  case noEvent =>
    have hgather := h.receiveAll_gathering (order.take k) (fun i hi => (hmem i).1 (List.mem_of_mem_take hi))
      (by rw [List.length_take]; omega)
    rw [hgather, State.gathering_outq]
  case record =>
    obtain ⟨got, last, rfl⟩ : ∃ got last, order = got ++ [last] := by
      have hne : order ≠ [] := List.ne_nil_of_length_pos (hcount ▸ nseg_pos size.toNat)
      exact ⟨_, _, (List.dropLast_append_getLast hne).symm⟩
    have hgather := h.receiveAll_gathering got (fun i hi => (hmem i).1 (List.mem_append_left _ hi))
      (by rw [List.length_append, List.length_singleton] at hcount; omega)
    rw [List.map_append, List.map_singleton, receiveAll_concat, hgather]
    exact h.receive_last got ((hmem last).1 (by simp)) fun j hj => (hmem j).2 hj

end Sys2Proof.Machine
end

section
/-! PROOFS. Turns of the engines: a turn that a hold stops, or that finds nothing to take, keeps the state; RXE takes the frame of
its port while `OUTQ` has a free entry. -/

namespace Sys2Proof.Machine

/-! ### CMD's turn (R127, R128, R136) -/

theorem cmdMove_of_responseValid {s : State} (h : s.responseValid = true) : cmdMove s = .next s := if_pos h

theorem cmdMove_of_unanswered {s : State} (hbusy : s.busy = true) (ha : s.answer = none) : cmdMove s = .next s := by
  simp only [cmdMove, hbusy, ha, if_true, ite_self]

/-- No words, or words that have not all come: CMD takes none. -/
theorem takeCommand_of_not_whole {s : State} (h : wholeCommand s.cmdPort = false) : takeCommand s = .next s := by
  cases hport : s.cmdPort with
  | nil => simp only [takeCommand, hport, decode]
  | cons w0 ws =>
    rw [hport] at h
    exact takeCommand_of_incomplete hport (Nat.lt_of_not_le (of_decide_eq_false h))

/-- What R173 calls a hold of CMD stops its turn. -/
theorem cmdMove_of_holds {s : State} (h : s.cmdHolds = true) : cmdMove s = .next s := by
  simp only [State.cmdHolds, Bool.or_eq_true, Bool.and_eq_true, Bool.not_eq_true', Option.isNone_iff_eq_none] at h
  obtain (⟨hresp, -⟩ | ⟨hbusy, ha⟩) | ⟨⟨hready, -⟩, hpart⟩ := h
  · exact cmdMove_of_responseValid hresp
  · exact cmdMove_of_unanswered hbusy ha
  · exact (cmdMove_of_commandReady hready).trans (takeCommand_of_not_whole hpart)

theorem busy_eq_false_iff (s : State) : s.busy = false ↔ s.cmd = .idle := by
  rw [← Bool.not_eq_true, State.busy_iff, not_not]

/-- With no command under way and none on the port CMD has nothing to do (R161). -/
theorem cmdMove_of_idle {s : State} (hidle : s.cmd = .idle) (hport : s.cmdPort = []) : cmdMove s = .next s := by
  by_cases hresp : s.responseValid = true
  · exact cmdMove_of_responseValid hresp
  · have hready : s.commandReady = true := by simp [State.commandReady, (busy_eq_false_iff s).2 hidle, hresp]
    exact (cmdMove_of_commandReady hready).trans (takeCommand_of_not_whole (by rw [hport]; rfl))

theorem takeAnswer_cmdPort (a : TRes) (s : State) : (takeAnswer a s).cmdPort = s.cmdPort := by
  rcases takeAnswer_shape a s with ⟨_, h⟩ | ⟨i, h⟩ | ⟨_, _, _, _, _, _, _, _, _, h⟩ <;> rw [h]
  · exact finish_cmdPort i a s
  · rfl

/-- A turn that takes no command takes no word (R127). -/
theorem cmdMove_of_not_commandReady {s : State} (h : s.commandReady = false) :
    ∃ t, cmdMove s = .next t ∧ t.cmdPort = s.cmdPort := by
  rcases cmdMove_shape s with e | ⟨_, a, _, e⟩ | ⟨hresp, hidle, _⟩
  · exact ⟨s, e, rfl⟩
  · exact ⟨_, e, takeAnswer_cmdPort a (s.withAnswer none)⟩
  · simp [State.commandReady, State.responseValid, (busy_eq_false_iff s).2 hidle, hresp] at h

/-! ### RXE's turn (R100) -/

theorem rxeMove_of_full {s : State} (h : s.rxeReady = false) : rxeMove s = s := by
  simp only [rxeMove, h, Bool.false_eq_true, if_false]

theorem rxeMove_of_noFrame {s : State} (h : s.rxPort = none) : rxeMove s = s := by
  simp only [rxeMove, h, ite_self]

theorem rxeMove_of_frame {s : State} {f : Frame} (hready : s.rxeReady = true) (hf : s.rxPort = some f) :
    rxeMove s = receive f (s.withRxPort none) := by
  simp only [rxeMove, hready, hf, if_true]

theorem receive_outq (f : Frame) (s : State) : (receive f s).outq = s.outq ∨ ∃ e, (receive f s).outq = s.outq ++ [e] := by
  obtain ⟨m, h | ⟨e, h⟩⟩ := receive_shape f s <;> rw [h]
  · exact .inl rfl
  · exact .inr ⟨e, rfl⟩

/-- Settles O15: each hold, and each way of having nothing to take, stops the turn; a CMD that is not ready takes no word. -/
theorem holdsAndIdlenessKeepTheState : Obligations.HoldsAndIdlenessKeepTheState := by
  intro s
  refine ⟨cmdMove_of_holds, fun hholds => ?rxeHolds, fun hidle hrx => ⟨?idle, ?rxe, cmdMove_of_idle hidle⟩,
    cmdMove_of_not_commandReady⟩
  case rxeHolds =>
    simp only [State.rxeHolds, Bool.and_eq_true, Bool.not_eq_true'] at hholds
    exact congrArg Host.Outcome.next (rxeMove_of_full hholds.2)
  case idle => simp [State.idle, (busy_eq_false_iff s).2 hidle, hrx]
  case rxe => exact congrArg Host.Outcome.next (rxeMove_of_noFrame hrx)

/-- Settles O45: RXE's turn goes by `OUTQ`'s room, and a pop of a full `OUTQ` makes room. -/
theorem receiveEngineTakesOneFrame : Obligations.ReceiveEngineTakesOneFrame := by
  intro s f hf
  refine ⟨fun hroom => ?takes, fun hfull => ?holds, receive_outq f s, fun e es hq hlen => ?pop⟩
  case takes => exact congrArg Host.Outcome.next (rxeMove_of_frame (decide_eq_true hroom) hf)
  case holds => exact congrArg Host.Outcome.next (rxeMove_of_full (decide_eq_false (Nat.not_lt.2 hfull)))
  case pop =>
    rw [hostMove_popEvent_cons hq]
    have hroom : es.length < s.params.outqDepth := by rw [← hlen, hq]; exact Nat.lt_succ_self _
    exact ⟨decide_eq_true hroom, hf⟩

end Sys2Proof.Machine
end

section
/-! PROOFS. The receive path: the arm a frame takes and the event it ends in, and which contexts it can reach. -/

namespace Sys2Proof.Machine

/-! ### Frames that reach no entry (R104, R105) -/

theorem receive_of_portFilter {f : Frame} (s : State) (h : f.ext = false ∨ 8 < f.size.toNat) : receive f s = s := if_pos h

theorem receive_of_noMatch {s : State} {f : Frame} (h : select s.exact s.masked f.key = none) : receive f s = s := by
  simp only [receive, h, ite_self]

/-- Settles O46: both tests stand before anything is written. -/
theorem droppedFramesChangeNothing : Obligations.DroppedFramesChangeNothing :=
  fun s _ => ⟨receive_of_portFilter s, receive_of_noMatch⟩

/-! ### Arms without a context (R106 to R108) -/

theorem takeSelected_raw {s : State} {f : Frame} {t : Target} (h : f.rtr = true ∨ t.len = 0) :
    takeSelected t f s = takeRaw t.tag f s :=
  if_pos (h.imp_right fun hlen => by rw [hlen]; rfl)

theorem maskData_getD {size : BitVec 4} (h8 : size.toNat ≤ 8) (d : Vector Byte 8) (k : Nat) :
    (maskData size d).toList.getD k 0 = if k < size.toNat then d.toList.getD k 0 else 0 := by
  by_cases hk : k < 8
  · exact dataOf_getD _ hk
  · have hend : (maskData size d).toList.length ≤ k := by simpa using hk
    rw [List.getD_eq_default _ _ hend, if_neg (by omega)]

/-- Settles O47: the raw arm emits the masked data. -/
theorem rawDelivery : Obligations.RawDelivery := by
  intro s f t hext h8 hsel hraw
  refine ⟨maskData f.size f.data, fun k hk => ?_, fun k hk => ?_, ?_⟩
  · rw [maskData_getD h8, if_pos hk]; rfl
  · rw [maskData_getD h8, if_neg (by omega)]
  · rw [receive_selected hext h8 hsel, takeSelected_raw hraw]; rfl

/-- Settles O48: the single-frame arm, whichever way its size test goes. -/
theorem singleFrameRecord : Obligations.SingleFrameRecord := by
  intro s f t hext h8 hrtr hsel hlo hhi
  rw [receive_selected hext h8 hsel, takeSelected_single hrtr hlo hhi]
  exact ⟨fun hsize => if_pos hsize, fun hsize => if_neg hsize⟩

/-- Settles O49: the multi-segment arm tests for an index byte before it touches `CTX`. -/
theorem missingIndex : Obligations.MissingIndex := by
  intro s f t hext hrtr hzero hsel hmulti
  have h8 : f.size.toNat ≤ 8 := by rw [hzero]; decide
  rw [receive_selected hext h8 hsel, takeSelected_multi hrtr hmulti]
  exact if_pos hzero

/-! ### Contexts of other identifiers (R115) -/

/-- The two maps hold the same contexts under every identifier but `id`. -/
def AgreeOff (id : Ident) (m m' : Memory) : Prop := ∀ id', id' ≠ id → Memory.find m' id' = Memory.find m id'

theorem AgreeOff.refl (id : Ident) (m : Memory) : AgreeOff id m m := fun _ _ => rfl

theorem AgreeOff.trans {id : Ident} {m m' m'' : Memory} (h : AgreeOff id m m') (h' : AgreeOff id m' m'') :
    AgreeOff id m m'' := fun id' hne => (h' id' hne).trans (h id' hne)

theorem agreeOff_erase (id : Ident) (m : Memory) : AgreeOff id m (Memory.erase m id) :=
  fun _ hne => Memory.find_erase_other m hne

theorem agreeOff_put {id : Ident} (m : Memory) {c : Context} (hc : c.id = id) : AgreeOff id m (Memory.put m c) :=
  fun _ hne => Memory.find_put_other m (hc ▸ hne)

theorem agreeOff_dropOtherSize (id : Ident) (m : Memory) (size : Len) : AgreeOff id m (Memory.dropOtherSize m id size) :=
  fun _ hne => Memory.find_dropOtherSize_other m size hne

theorem Memory.readByte_of_find {m : Memory} {id : Ident} {c : Context} (h : Memory.find m id = some c) (off : Nat) :
    Memory.readByte m id off = c.value.getD off 0 := by
  simp only [Memory.readByte, h]

theorem Memory.readBit_of_find {m : Memory} {id : Ident} {c : Context} (h : Memory.find m id = some c) (j : Nat) :
    Memory.readBit m id j = c.received.getD j false := by
  simp only [Memory.readBit, h]

theorem AgreeOff.readByte {id id' : Ident} {m m' : Memory} (h : AgreeOff id m m') (hne : id' ≠ id) (off : Nat) :
    Memory.readByte m' id' off = Memory.readByte m id' off := by
  simp only [Memory.readByte, h id' hne]

section others

variable {s : State} {f : Frame}

theorem storeSegment_agreeOff {c : Context} (hc : c.id = f.id) (tag : Tag) (idx : Nat) :
    AgreeOff f.id s.ctx (storeSegment tag f idx c s).ctx := by
  rcases storeSegment_shape tag f idx c s with ⟨_, e⟩ | ⟨_, e⟩ <;> rw [e]
  · exact agreeOff_erase f.id s.ctx
  · exact agreeOff_put s.ctx hc

theorem takeIndexed_agreeOff (size : Len) (tag : Tag) : AgreeOff f.id s.ctx (takeIndexed size tag f s).ctx := by
  by_cases hidx : nseg size.toNat ≤ (f.byte 0).toNat
  · rw [takeIndexed_outOfRange hidx]
    exact agreeOff_erase f.id s.ctx
  cases hfind : Memory.find s.ctx f.id with
  | some c =>
    rw [takeIndexed_of_find (Nat.lt_of_not_le hidx) hfind]
    exact storeSegment_agreeOff (Memory.find_id hfind) tag _
  | none =>
    by_cases hfull : s.params.nctx ≤ s.ctx.length
    · rw [takeIndexed_full hidx hfind hfull]
      exact AgreeOff.refl f.id s.ctx
    · rw [takeIndexed_of_room (Nat.lt_of_not_le hidx) hfind (Nat.lt_of_not_le hfull)]
      exact storeSegment_agreeOff (c := newContext f.id size (nseg size.toNat)) rfl tag _

theorem takeSegment_agreeOff (size : Len) (tag : Tag) : AgreeOff f.id s.ctx (takeSegment size tag f s).ctx := by
  unfold takeSegment
  split
  · exact AgreeOff.refl f.id s.ctx
  · exact (agreeOff_dropOtherSize f.id s.ctx size).trans (takeIndexed_agreeOff size tag)

theorem takeSingle_ctx (size : Len) (tag : Tag) : (takeSingle size tag f s).ctx = s.ctx := by
  unfold takeSingle
  split <;> rfl

theorem receive_agreeOff : AgreeOff f.id s.ctx (receive f s).ctx := by
  unfold receive
  split
  · exact AgreeOff.refl f.id s.ctx
  · split
    · exact AgreeOff.refl f.id s.ctx
    · rename_i t _
      unfold takeSelected
      split
      · exact AgreeOff.refl f.id s.ctx
      · split
        · rw [takeSingle_ctx]
          exact AgreeOff.refl f.id s.ctx
        · exact takeSegment_agreeOff t.len t.tag

end others

/-- Settles O54: every arm keeps the contexts of the other identifiers, and so what their bytes read as. -/
theorem otherIdentifiersAreUntouched : Obligations.OtherIdentifiersAreUntouched :=
  fun _ _ id hne => ⟨receive_agreeOff id hne, receive_agreeOff.readByte hne⟩

/-! ### Frames with an index byte, and an index out of range (R109, R110) -/

theorem Memory.dropOtherSize_of_find_none {m : Memory} {id : Ident} (size : Len) (h : Memory.find m id = none) :
    Memory.dropOtherSize m id size = m :=
  Memory.dropOtherSize_eq_self fun c hc => by rw [h] at hc; cases hc

/-- A data frame with an index byte, selected by an entry for records of several segments: what R109 to R114 speak of. -/
structure Indexed (s : State) (f : Frame) (t : Target) : Prop where
  ext : f.ext = true
  data : f.rtr = false
  size_pos : 1 ≤ f.size.toNat
  size_le : f.size.toNat ≤ 8
  selected : select s.exact s.masked f.key = some t
  multi : 8 < t.len.toNat

section indexed

variable {s : State} {f : Frame} {t : Target}

theorem Indexed.receive_eq (h : Indexed s f t) :
    receive f s = takeIndexed t.len t.tag f (s.withCtx (Memory.dropOtherSize s.ctx f.id t.len)) :=
  receive_indexed h.ext h.data h.size_pos h.size_le h.selected h.multi

theorem Indexed.receive_outOfRange (h : Indexed s f t) (hidx : nseg t.len.toNat ≤ (f.byte 0).toNat) :
    receive f s = emit (.rxError t.tag f.key .invalidIndex f.size (f.byte 0))
      (s.withCtx (Memory.erase (Memory.dropOtherSize s.ctx f.id t.len) f.id)) :=
  h.receive_eq.trans (takeIndexed_outOfRange hidx)

end indexed

/-- Settles O50: the other-size discard and the reset free the one identifier, and free nothing where it has no context. -/
theorem outOfRangeIndex : Obligations.OutOfRangeIndex := by
  intro s f t hext hrtr hpos h8 hsel hmulti hidx
  have h : Indexed s f t := ⟨hext, hrtr, hpos, h8, hsel, hmulti⟩
  refine ⟨Memory.erase (Memory.dropOtherSize s.ctx f.id t.len) f.id, Memory.find_erase_self _ f.id,
    (agreeOff_dropOtherSize f.id s.ctx t.len).trans (agreeOff_erase f.id _), fun hnone => ?absent,
    h.receive_outOfRange hidx⟩
  case absent => rw [Memory.dropOtherSize_of_find_none t.len hnone, Memory.erase_of_find_none hnone]

end Sys2Proof.Machine
end

section
/-! PROOFS. Storing a segment: the context it is written into, the bytes and the bit it leaves there, the record it completes, and
why a second copy of it changes nothing. -/

namespace Sys2Proof.Machine

/-! ### `CTX` and the two ends of a store (R112 to R114) -/

/-- After a context is put, its identifier has it. -/
theorem Memory.find_put_of_wf {m : Memory} {c : Context} {id : Ident} (hwf : Memory.wf m = true) (hid : c.id = id) :
    Memory.find (Memory.put m c) id = some c :=
  hid ▸ Memory.find_put_self ((Memory.wf_iff m).1 hwf).1

theorem storeSegment_of_full {s : State} {f : Frame} {c : Context} {idx : Nat} (tag : Tag)
    (h : allSet (setBit c.received idx) = true) :
    storeSegment tag f idx c s
      = emit (.record tag f.key c.size (c.accept f idx).value) (s.withCtx (Memory.erase s.ctx f.id)) := if_pos h

theorem storeSegment_of_partial {s : State} {f : Frame} {c : Context} {idx : Nat} (tag : Tag)
    (h : ¬ allSet (setBit c.received idx) = true) :
    storeSegment tag f idx c s = s.withCtx (Memory.put s.ctx (c.accept f idx)) := if_neg h

/-! ### The context a valid segment is written into (R111, R112) -/

/-- A context of record size `size` that holds for its identifier what `m` reads as for it: the one `m` holds, or a new one where
`m` holds none (R27, R111). -/
structure Context.ReadsAs (c : Context) (m : Memory) (id : Ident) (size : Len) : Prop where
  id_eq : c.id = id
  size_eq : c.size = size
  bits : c.received.length = nseg size.toNat
  bytes : c.value.length = size.toNat
  readByte : ∀ off, c.value.getD off 0 = Memory.readByte m id off
  readBit : ∀ j, c.received.getD j false = Memory.readBit m id j

namespace Context.ReadsAs

variable {c : Context} {m : Memory} {id : Ident} {size : Len} (h : c.ReadsAs m id size) {f : Frame} {idx : Nat}
include h

theorem full_iff (hidx : idx < nseg size.toNat) :
    allSet (setBit c.received idx) = true ↔
      ∀ j, j < nseg size.toNat → j ≠ idx → Memory.readBit m id j = true := by
  rw [allSet_setBit (h.bits ▸ hidx), h.bits]
  exact forall₃_congr fun j _ _ => by rw [h.readBit]

theorem accept_byte (h8 : f.size.toNat ≤ 8) (off : Nat) :
    (c.accept f idx).value.getD off 0 =
      if 7 * idx ≤ off ∧ off < 7 * idx + min (f.size.toNat - 1) (size.toNat - 7 * idx)
      then f.byte (1 + (off - 7 * idx)) else Memory.readByte m id off := by
  rw [accept_value_getD h8, h.bytes, h.size_eq, h.readByte]
  exact if_congr (by omega) rfl rfl

theorem accept_bit_self (hidx : idx < nseg size.toNat) : (c.accept f idx).received.getD idx false = true :=
  setBit_getD_self (h.bits ▸ hidx)

theorem accept_bit_other {j : Nat} (hj : j ≠ idx) : (c.accept f idx).received.getD j false = Memory.readBit m id j :=
  (setBit_getD_other c.received hj.symm).trans (h.readBit j)

end Context.ReadsAs

/-- A valid segment that finds its context or room for one is stored, and nothing else is done (R111). -/
theorem Indexed.receive_inRange {s : State} {f : Frame} {t : Target} (h : Indexed s f t) (hwf : s.wf = true)
    (hidx : (f.byte 0).toNat < nseg t.len.toNat)
    (hroom : Memory.find (Memory.dropOtherSize s.ctx f.id t.len) f.id = none →
      (Memory.dropOtherSize s.ctx f.id t.len).length < s.params.nctx) :
    ∃ c : Context, c.ReadsAs (Memory.dropOtherSize s.ctx f.id t.len) f.id t.len ∧
      receive f s
        = storeSegment t.tag f (f.byte 0).toNat c (s.withCtx (Memory.dropOtherSize s.ctx f.id t.len)) := by
  obtain ⟨c, hid, hsize, hbits, hbytes, hbyte, hbit, e⟩ :=
    takeIndexed_inRange (s := s.withCtx (Memory.dropOtherSize s.ctx f.id t.len)) (tag := t.tag)
      (Memory.dropOtherSize_wf f.id t.len (State.wf_ctx hwf)) (fun _ hc => (Memory.find_dropOtherSize_self hc).1) hidx hroom
  exact ⟨c, ⟨hid, hsize, hbits, hbytes, hbyte, hbit⟩, h.receive_eq.trans e⟩

/-- Settles O52: the segment is stored into the context the identifier reads as having, whose bitmap stays incomplete. -/
theorem segmentWritesItsBytesAndItsBit : Obligations.SegmentWritesItsBytesAndItsBit := by
  intro s f t hwf hext hrtr hpos h8 hsel hmulti idx before stored hidx hroom ⟨j, hj, hne, hclear⟩
  have h : Indexed s f t := ⟨hext, hrtr, hpos, h8, hsel, hmulti⟩
  obtain ⟨c, hc, e⟩ := h.receive_inRange hwf hidx hroom
  have hpart : ¬ allSet (setBit c.received idx) = true := fun hfull => by
    rw [(hc.full_iff hidx).1 hfull j hj hne] at hclear
    cases hclear
  have hfind : Memory.find (Memory.put before (c.accept f idx)) f.id = some (c.accept f idx) :=
    Memory.find_put_of_wf (Memory.dropOtherSize_wf f.id t.len (State.wf_ctx hwf)) hc.id_eq
  have hothers : AgreeOff f.id s.ctx (Memory.put before (c.accept f idx)) :=
    (agreeOff_dropOtherSize f.id s.ctx t.len).trans (agreeOff_put before hc.id_eq)
  refine ⟨Memory.put before (c.accept f idx), e.trans (storeSegment_of_partial t.tag hpart), ?bit, fun k hk => ?otherBits,
    fun off hlo hhi => ?bytes, fun off hout => ?otherBytes, fun id hid => hothers.readByte hid⟩
  case bit => exact (Memory.readBit_of_find hfind idx).trans (hc.accept_bit_self hidx)
  case otherBits => exact (Memory.readBit_of_find hfind k).trans (hc.accept_bit_other hk)
  case bytes =>
    rw [Memory.readByte_of_find hfind, hc.accept_byte h8]
    exact if_pos ⟨hlo, hhi⟩
  case otherBytes =>
    rw [Memory.readByte_of_find hfind, hc.accept_byte h8]
    exact if_neg fun hin => by omega

/-- Settles O53: the identifier's context has the entry's size, so nothing is discarded, and the segment fills its bitmap. -/
theorem completionDeliversTheRecord : Obligations.CompletionDeliversTheRecord := by
  intro s f t c₀ hwf hext hrtr hpos h8 hsel hmulti hfind hsize idx stored hidx hall
  have h : Indexed s f t := ⟨hext, hrtr, hpos, h8, hsel, hmulti⟩
  have hkept : Memory.dropOtherSize s.ctx f.id t.len = s.ctx :=
    Memory.dropOtherSize_eq_self fun c hc => by rw [Option.some.inj (hc.symm.trans hfind), hsize]
  obtain ⟨c, hc, e⟩ := h.receive_inRange hwf hidx (by rw [hkept, hfind]; exact fun hnone => nomatch hnone)
  rw [hkept] at hc e
  refine ⟨Memory.erase s.ctx f.id, (c.accept f idx).value, (c.accept_value_length f idx).trans hc.bytes,
    fun off _ => hc.accept_byte h8 off, Memory.find_erase_self s.ctx f.id, agreeOff_erase f.id s.ctx, ?_⟩
  rw [e, storeSegment_of_full t.tag ((hc.full_iff hidx).2 hall), hc.size_eq]
  rfl

/-! ### A segment that comes again (R112, R118 (b)) -/

theorem setBit_setBit (bits : List Bool) (i : Nat) : setBit (setBit bits i) i = setBit bits i := List.set_set ..

theorem bufWrite_bufWrite (v : List Byte) (off : Nat) (bs : List Byte) :
    bufWrite (bufWrite v off bs) off bs = bufWrite v off bs := by
  refine eq_of_forall_getD (by simp) fun k hk => ?_
  have hk' : k < v.length := by simpa using hk
  rw [bufWrite_getD (bufWrite v off bs) off bs (by simpa using hk')]
  split
  · rename_i hin
    rw [bufWrite_getD v off bs hk', if_pos hin]
  · rfl

theorem Context.accept_accept (c : Context) (f : Frame) (i : Nat) : (c.accept f i).accept f i = c.accept f i := by
  simp only [Context.accept, setBit_setBit, bufWrite_bufWrite]

section again

variable {s : State} {f : Frame} {t : Target}

/-- A segment that emits nothing is stored, and leaves its context incomplete. -/
theorem Indexed.receive_silent (h : Indexed s f t) (hwf : s.wf = true) (hq : (receive f s).outq = s.outq) :
    ∃ c : Context, (f.byte 0).toNat < nseg t.len.toNat ∧ c.id = f.id ∧ c.size = t.len ∧
      ¬ allSet (setBit c.received (f.byte 0).toNat) = true ∧
      receive f s = s.withCtx
        (Memory.put (Memory.dropOtherSize s.ctx f.id t.len) (c.accept f (f.byte 0).toNat)) := by
  have hsilent : ∀ e m, receive f s ≠ emit e (s.withCtx m) := fun e m he => by
    rw [he] at hq
    simp at hq
  have hidx : (f.byte 0).toNat < nseg t.len.toNat :=
    Nat.lt_of_not_le fun hout => hsilent _ _ (h.receive_outOfRange hout)
  have hroom : Memory.find (Memory.dropOtherSize s.ctx f.id t.len) f.id = none →
      (Memory.dropOtherSize s.ctx f.id t.len).length < s.params.nctx := fun hnone =>
    Nat.lt_of_not_le fun hfull => hsilent _ _ (h.receive_eq.trans (takeIndexed_full (Nat.not_le.2 hidx) hnone hfull))
  obtain ⟨c, hc, e⟩ := h.receive_inRange hwf hidx hroom
  have hpart : ¬ allSet (setBit c.received (f.byte 0).toNat) = true :=
    fun hfull => hsilent _ _ (e.trans (storeSegment_of_full t.tag hfull))
  exact ⟨c, hidx, hc.id_eq, hc.size_eq, hpart, e.trans (storeSegment_of_partial t.tag hpart)⟩

/-- A segment whose bytes and bit its context already holds changes nothing. -/
theorem Indexed.receive_held {c : Context} (h : Indexed s f t) (hidx : (f.byte 0).toNat < nseg t.len.toNat)
    (hfind : Memory.find s.ctx f.id = some c) (hsize : c.size = t.len) (hpart : ¬ allSet c.received = true)
    (hheld : c.accept f (f.byte 0).toNat = c) (hput : Memory.put s.ctx c = s.ctx) : receive f s = s := by
  have hkept : Memory.dropOtherSize s.ctx f.id t.len = s.ctx :=
    Memory.dropOtherSize_eq_self fun d hd => by rw [Option.some.inj (hd.symm.trans hfind), hsize]
  have hbits : setBit c.received (f.byte 0).toNat = c.received := congrArg Context.received hheld
  calc receive f s
      = takeIndexed t.len t.tag f (s.withCtx s.ctx) := hkept ▸ h.receive_eq
    _ = storeSegment t.tag f (f.byte 0).toNat c s := takeIndexed_of_find hidx hfind
    _ = s.withCtx (Memory.put s.ctx (c.accept f (f.byte 0).toNat)) := storeSegment_of_partial t.tag (by rwa [hbits])
    _ = s := State.withCtx_eq_self (by rw [hheld, hput])

end again

/-- Settles O55: the frame that came with no event has left a context that holds its bytes and its bit. -/
theorem redeliveryIsIdempotent : Obligations.RedeliveryIsIdempotent := by
  intro s f t hwf hext hrtr h8 hsel hmulti hq
  have hpos : 1 ≤ f.size.toNat := Nat.one_le_iff_ne_zero.2 fun hzero => by
    rw [missingIndex s f t hext hrtr (BitVec.eq_of_toNat_eq hzero) hsel hmulti] at hq
    simp at hq
  have h : Indexed s f t := ⟨hext, hrtr, hpos, h8, hsel, hmulti⟩
  obtain ⟨c, hidx, hid, hsize, hpart, e⟩ := h.receive_silent hwf hq
  have hfind : Memory.find (receive f s).ctx f.id = some (c.accept f (f.byte 0).toNat) := by
    rw [e]
    exact Memory.find_put_of_wf (Memory.dropOtherSize_wf f.id t.len (State.wf_ctx hwf)) hid
  have hput : Memory.put (receive f s).ctx (c.accept f (f.byte 0).toNat) = (receive f s).ctx := by
    rw [e]
    exact Memory.put_put _ rfl
  have h' : Indexed (receive f s) f t := ⟨hext, hrtr, hpos, h8, by rw [e]; exact hsel, hmulti⟩
  exact h'.receive_held hidx hfind hsize hpart (c.accept_accept f _) hput

end Sys2Proof.Machine
end

section
/-! PROOFS. The filter tables: which entry governs a key, and the four commands that change the tables. -/

namespace Sys2Proof.Machine

/-! ### Selection (R119) -/

/-- In a strictly rising list an entry is fixed by its key. -/
theorem eq_of_risingBy {α : Type} {key : α → Nat} {l : List α} {x y : α} (h : risingBy key l = true) (hx : x ∈ l) (hy : y ∈ l)
    (hxy : key x = key y) : x = y := by
  have hnodup : (l.map key).Nodup := List.pairwise_map.2 (((risingBy_iff_pairwise l).1 h).imp Nat.ne_of_lt)
  exact List.inj_on_of_nodup_map hnodup hx hy hxy

section select

variable {p : Params} {exact : List ExactEntry} {masked : List MaskedEntry} {k : Word}

theorem find?_exact_of_mem {e : ExactEntry} (hwf : exactWf p exact = true) (he : e ∈ exact) (hk : e.key = k) :
    exact.find? (·.hits k) = some e := by
  obtain ⟨hrise, -, -⟩ := (exactWf_iff p exact).1 hwf
  obtain ⟨d, hfound⟩ : ∃ d, exact.find? (·.hits k) = some d :=
    Option.isSome_iff_exists.1 (List.find?_isSome.2 ⟨e, he, (e.hits_iff k).2 hk⟩)
  have hdk : d.key = k := (d.hits_iff k).1 (List.find?_some (p := fun e : ExactEntry => e.hits k) hfound)
  rw [hfound, eq_of_risingBy hrise (List.mem_of_find?_eq_some hfound) he (by rw [hdk, hk])]

theorem find?_exact_of_absent (h : ∀ e ∈ exact, e.key ≠ k) : exact.find? (·.hits k) = none :=
  List.find?_eq_none.2 fun e he => (e.hits_iff k).not.2 (h e he)

theorem select_of_exact {e : ExactEntry} (h : exact.find? (·.hits k) = some e) :
    select exact masked k = some { len := e.len, tag := e.tag } := by
  simp only [select, h]

theorem select_of_noExact (h : exact.find? (·.hits k) = none) :
    select exact masked k = (masked.find? (·.hits k)).map fun e => { len := e.len, tag := e.tag } := by
  cases hm : masked.find? (·.hits k) <;> simp only [select, h, hm, Option.map_none, Option.map_some]

end select

/-- Settles O25: an exact entry is the only one of its key, and a stored masked entry's test is R119's. -/
theorem selectionOrder : Obligations.SelectionOrder := by
  intro p exact masked k hexact hmasked
  obtain ⟨-, hentries, -⟩ := (maskedWf_iff p masked).1 hmasked
  have hhits : ∀ e ∈ masked, (e.hits k = true ↔ k &&& e.mask = e.base) := fun e he =>
    MaskedEntry.hits_iff_of_wf (hentries e he) k
  refine ⟨fun e he hk => select_of_exact (find?_exact_of_mem hexact he hk), fun habsent => ?_⟩
  rw [select_of_noExact (find?_exact_of_absent habsent)]
  refine ⟨fun j hj hmatch hleast => ?oldest, fun hnone => ?none⟩
  case oldest =>
    have hfound : masked.find? (·.hits k) = some masked[j] :=
      List.find?_eq_some_iff_getElem.2 ⟨(hhits _ (List.getElem_mem hj)).2 hmatch, j, hj, rfl, fun i hi => by
        simpa using (hhits _ (List.getElem_mem (hi.trans hj))).not.2 (hleast i hi)⟩
    rw [hfound, Option.map_some]
  case none =>
    have hfound : masked.find? (·.hits k) = none := List.find?_eq_none.2 fun e he => (hhits e he).not.2 (hnone e he)
    rw [hfound, Option.map_none]

/-! ### Legal filter commands and their first steps (R121 to R124) -/

theorem tagReserved_eq_zero_iff (w : Word) : tagReserved w = 0 ↔ w.toNat < 2 ^ 16 := extractLsb'_high_eq_zero_iff w rfl

theorem tagField_eq_setWidth (w : Word) : tagField w = w.setWidth 16 := (BitVec.setWidth_eq_extractLsb' (by decide)).symm

/-- R69 for a command that uses neither `NODE` nor `RTR` and gives `LEN` no least value. -/
theorem legal_iff_of_fieldRule {i : Instr} {hi : Nat} (hrule : i.fieldRule = ⟨false, false, 0, hi⟩) :
    i.legal = true ↔
      i.header.node = 0 ∧ i.header.rtr = false ∧ i.header.rsv = 0 ∧ i.header.len.toNat ≤ hi ∧ i.operandsOk = true := by
  simp only [instr_legal_iff, hrule, Bool.false_eq_true, false_or, Nat.zero_le, true_and]
  tauto

section legal

variable (h : Header) (key base mask tag : Word)

theorem legal_register_iff :
    (Instr.register h key tag).legal = true ↔
      h.node = 0 ∧ h.rtr = false ∧ h.rsv = 0 ∧ h.len.toNat ≤ 1792 ∧ keyReserved key = false ∧ tag.toNat < 2 ^ 16 :=
  (legal_iff_of_fieldRule rfl).trans (by simp [Instr.header, Instr.operandsOk, tagWordOk])

theorem legal_registerMasked_iff :
    (Instr.registerMasked h base mask tag).legal = true ↔
      h.node = 0 ∧ h.rtr = false ∧ h.rsv = 0 ∧ h.len.toNat ≤ 1792 ∧ keyReserved base = false ∧ keyReserved mask = false ∧
        tag.toNat < 2 ^ 16 :=
  (legal_iff_of_fieldRule rfl).trans (by simp [Instr.header, Instr.operandsOk, tagWordOk, and_assoc])

theorem legal_remove_iff :
    (Instr.remove h key).legal = true ↔ h.node = 0 ∧ h.rtr = false ∧ h.rsv = 0 ∧ h.len = 0 ∧ keyReserved key = false :=
  (legal_iff_of_fieldRule rfl).trans (by simp [Instr.header, Instr.operandsOk, ← BitVec.toNat_inj])

theorem legal_removeMasked_iff :
    (Instr.removeMasked h base mask).legal = true ↔
      h.node = 0 ∧ h.rtr = false ∧ h.rsv = 0 ∧ h.len = 0 ∧ keyReserved base = false ∧ keyReserved mask = false :=
  (legal_iff_of_fieldRule rfl).trans (by simp [Instr.header, Instr.operandsOk, ← BitVec.toNat_inj])

end legal

section steps

variable {h : Header} {key base mask tag : Word} (s : State)

/-- R121 past its first test. -/
theorem exec_register_of_legal (hl : (Instr.register h key tag).legal = true) :
    exec (.register h key tag) s =
      if ∃ e ∈ s.exact, e.key = key then .next (respond .entryExists 0 0 none s)
      else if s.params.nexact ≤ s.exact.length then .next (respond .tableFull 0 0 none s)
      else .next (respondOk (s.withExact
        (putBy (fun e => e.key.toNat) { key := key, len := h.len, tag := tag.setWidth 16 } s.exact))) := by
  obtain ⟨hnode, hrtr, hrsv, hlen, hkey, htag⟩ := (legal_register_iff h key tag).1 hl
  have hok : ¬ (h.node ≠ 0 ∨ h.rtr = true ∨ h.rsv ≠ 0 ∨ maxRecord < h.len.toNat ∨ keyReserved key = true
      ∨ tagReserved tag ≠ 0) := by
    simp [hnode, hrtr, hrsv, hlen, hkey, (tagReserved_eq_zero_iff tag).2 htag]
  rw [exec, execRegister, if_neg hok, tagField_eq_setWidth]
  exact if_congr (by simp) rfl rfl

/-- R122 past its first test. -/
theorem exec_registerMasked_of_legal (hl : (Instr.registerMasked h base mask tag).legal = true) :
    exec (.registerMasked h base mask tag) s =
      if ∃ e ∈ s.masked, e.mask = mask ∧ e.base = base &&& mask then .next (respond .entryExists 0 0 none s)
      else if s.params.nmasked ≤ s.masked.length then .next (respond .tableFull 0 0 none s)
      else .next (respondOk (s.withMasked
        (s.masked ++ [{ base := base &&& mask, mask := mask, len := h.len, tag := tag.setWidth 16 }]))) := by
  obtain ⟨hnode, hrtr, hrsv, hlen, hbase, hmask, htag⟩ := (legal_registerMasked_iff h base mask tag).1 hl
  have hok : ¬ (h.node ≠ 0 ∨ h.rtr = true ∨ h.rsv ≠ 0 ∨ maxRecord < h.len.toNat ∨ keyReserved base = true
      ∨ keyReserved mask = true ∨ tagReserved tag ≠ 0) := by
    simp [hnode, hrtr, hrsv, hlen, hbase, hmask, (tagReserved_eq_zero_iff tag).2 htag]
  rw [exec, execRegisterMasked, if_neg hok, tagField_eq_setWidth]
  exact if_congr (by simp) rfl rfl

/-- R123 past its one test. -/
theorem exec_remove_of_legal (hl : (Instr.remove h key).legal = true) :
    exec (.remove h key) s = .next (respondOk (s.withExact (s.exact.filter fun e => e.key != key))) := by
  obtain ⟨hnode, hrtr, hrsv, hlen, hkey⟩ := (legal_remove_iff h key).1 hl
  exact if_neg (by simp [hnode, hrtr, hrsv, hlen, hkey])

/-- R124 past its one test. -/
theorem exec_removeMasked_of_legal (hl : (Instr.removeMasked h base mask).legal = true) :
    exec (.removeMasked h base mask) s = .next (respondOk (s.withMasked
      (s.masked.filter fun e => decide (¬ (e.mask = mask ∧ e.base = base &&& mask))))) := by
  obtain ⟨hnode, hrtr, hrsv, hlen, hbase, hmask⟩ := (legal_removeMasked_iff h base mask).1 hl
  have htest : ∀ e : MaskedEntry, decide (¬ (e.mask = mask ∧ e.base = base &&& mask)) =
      !(e.mask == mask && e.base == (base &&& mask)) := fun e => by
    rw [decide_not, Bool.decide_and, beq_eq_decide, beq_eq_decide]
  simp only [htest]
  exact if_neg (by simp [hnode, hrtr, hrsv, hlen, hbase, hmask])

end steps

/-! ### REGISTER and REGISTER_MASKED (R121, R122) -/

/-- Where no entry has the key, `putBy` adds one. -/
theorem length_putBy_of_fresh {α : Type} {key : α → Nat} {x : α} {l : List α} (h : ∀ y ∈ l, key y ≠ key x) :
    (putBy key x l).length = l.length + 1 := by
  induction l with
  | nil => rfl
  | cons y ys ih =>
    obtain ⟨hy, hys⟩ := List.forall_mem_cons.1 h
    rw [putBy, if_neg hy.symm]
    split
    · rfl
    · exact congrArg (· + 1) (ih hys)

/-- Settles O38: the tests in order, and a key that no entry has is put in as one more entry. -/
theorem registerCommand : Obligations.RegisterCommand := by
  refine ⟨fun w0 w1 w2 rest hopc => ?words, fun h key tag s => ?_⟩
  case words => exact decode_known (o := .register) (ops := [w1, w2]) rest (ofCode_eq_some_iff.2 hopc.symm) rfl
  intro legal
  have hlegal : (Instr.register h key tag).legal = true ↔ legal := legal_register_iff h key tag
  refine ⟨fun hbad => exec_of_not_legal s (hlegal.not.2 hbad), fun hl hknown => ?known, fun hl hnew hfull => ?full,
    fun hl hnew hroom => ?added⟩ <;> rw [exec_register_of_legal s (hlegal.2 hl)]
  case known => exact if_pos hknown
  case full => rw [if_neg (by simpa using hnew)]; exact if_pos hfull.ge
  case added =>
    have hfresh : ∀ e ∈ s.exact, e.key.toNat ≠ key.toNat := fun e he => BitVec.toNat_inj.not.2 (hnew e he)
    rw [if_neg (by simpa using hnew), if_neg (Nat.not_le.2 hroom)]
    exact ⟨_, fun e => mem_putBy_of_fresh hfresh, length_putBy_of_fresh hfresh, rfl⟩

/-- Settles O39: the tests in order, and the normalised entry at the end. -/
theorem registerMaskedCommand : Obligations.RegisterMaskedCommand := by
  refine ⟨fun w0 w1 w2 w3 rest hopc => ?words, fun h base mask tag s => ?_⟩
  case words => exact decode_known (o := .registerMasked) (ops := [w1, w2, w3]) rest (ofCode_eq_some_iff.2 hopc.symm) rfl
  intro legal known
  have hlegal : (Instr.registerMasked h base mask tag).legal = true ↔ legal := legal_registerMasked_iff h base mask tag
  refine ⟨fun hbad => exec_of_not_legal s (hlegal.not.2 hbad), fun hl hknown => ?known, fun hl hnew hfull => ?full,
    fun hl hnew hroom => ?added⟩ <;> rw [exec_registerMasked_of_legal s (hlegal.2 hl)]
  case known => exact if_pos hknown
  case full => rw [if_neg hnew]; exact if_pos hfull.ge
  case added => rw [if_neg hnew]; exact if_neg (Nat.not_le.2 hroom)

/-! ### REMOVE and REMOVE_MASKED (R123, R124) -/

/-- Settles O40: removal is the filter by the key, absent or not. -/
theorem removeCommand : Obligations.RemoveCommand := by
  refine ⟨fun w0 w1 rest hopc => ?words, fun h key s => ?_⟩
  case words => exact decode_known (o := .remove) (ops := [w1]) rest (ofCode_eq_some_iff.2 hopc.symm) rfl
  intro legal
  have hlegal : (Instr.remove h key).legal = true ↔ legal := legal_remove_iff h key
  exact ⟨fun hbad => exec_of_not_legal s (hlegal.not.2 hbad), fun hl =>
    ⟨_, fun e => by simp, List.filter_sublist, exec_remove_of_legal s (hlegal.2 hl)⟩⟩

/-- Settles O41: removal is the filter by the mask and the normalised base. -/
theorem removeMaskedCommand : Obligations.RemoveMaskedCommand := by
  refine ⟨fun w0 w1 w2 rest hopc => ?words, fun h base mask s => ?_⟩
  case words => exact decode_known (o := .removeMasked) (ops := [w1, w2]) rest (ofCode_eq_some_iff.2 hopc.symm) rfl
  intro legal
  have hlegal : (Instr.removeMasked h base mask).legal = true ↔ legal := legal_removeMasked_iff h base mask
  exact ⟨fun hbad => exec_of_not_legal s (hlegal.not.2 hbad), fun hl => exec_removeMasked_of_legal s (hlegal.2 hl)⟩

end Sys2Proof.Machine
end

section
/-! PROOFS. The ports: one thing at a time on each port into the block, the host's read of the response slot, and the two requests of
the control port. -/

namespace Sys2Proof.Machine

/-! ### The command port and the response slot (R126, R134, R136) -/

/-- The words the host may put on the command port (R136). -/
theorem oneCommand_eq_true_iff (ws : List Word) :
    oneCommand ws = true ↔ ∃ w0 rest, ws = w0 :: rest ∧ ws.length = commandWords w0 := by
  cases ws with
  | nil => simp
  | cons w0 rest => simp

theorem hostMove_issue_of_free {s : State} {ws : List Word} (hport : s.cmdPort = []) (hws : oneCommand ws = true) :
    hostMove (.issue ws) s = s.withCmdPort ws :=
  if_pos (by simp [State.portReady, hport, hws])

theorem hostMove_issue_of_taken {s : State} (ws : List Word) (hport : s.cmdPort ≠ []) : hostMove (.issue ws) s = s :=
  if_neg (by simp [State.portReady, hport])

theorem hostMove_issue_of_not_oneCommand (s : State) {ws : List Word} (hws : ¬ oneCommand ws = true) :
    hostMove (.issue ws) s = s :=
  if_neg (by simp [hws])

theorem hostMove_readResponse_some {s : State} {r : Response} (h : s.resp = some r) :
    hostMove .readResponse s = (s.withResp none).withRespLog (s.respLog ++ [r.words]) := by
  simp only [hostMove, h]

/-- R127: when CMD may take a command. -/
theorem commandReady_iff (s : State) : s.commandReady = true ↔ s.cmd = .idle ∧ s.resp = none := by
  simp [State.commandReady, State.responseValid, busy_eq_false_iff]

/-- Settles O17: the read leaves the slot empty, and an idle CMD waits for nothing else (R127). -/
theorem readingTheResponse : Obligations.ReadingTheResponse := by
  intro s r hresp
  exact ⟨_, congrArg Host.Outcome.next (hostMove_readResponse_some hresp), rfl, fun hidle =>
    (commandReady_iff _).2 ⟨hidle, rfl⟩⟩

/-! ### The transport's ports (R126, R128, R133, R137) -/

section transport

variable {s : State}

theorem transportMove_offerFrame_of_free (f : Frame) (h : s.rxPort = none) :
    transportMove (.offerFrame f) s = s.withRxPort (some f) := by
  simp only [transportMove, h]

theorem transportMove_offerFrame_of_taken (f : Frame) (h : s.rxPort ≠ none) : transportMove (.offerFrame f) s = s := by
  obtain ⟨g, hg⟩ := Option.ne_none_iff_exists'.1 h
  simp only [transportMove, hg]

theorem transportMove_answer_of_pending (a : TRes) (hbusy : s.cmd ≠ .idle) (ha : s.answer = none) :
    transportMove (.answer a) s = s.withAnswer (some a) :=
  if_pos (by simp [(State.busy_iff s).2 hbusy, ha])

theorem transportMove_answer_of_not_pending (a : TRes) (h : s.cmd = .idle ∨ s.answer ≠ none) :
    transportMove (.answer a) s = s := by
  refine if_neg ?_
  rcases h with hidle | ha
  · simp [(busy_eq_false_iff s).2 hidle]
  · simp [ha]

end transport

/-- Settles O16: each agent's move on a port goes by whether the port is free, and CMD takes every word of a lone command. -/
theorem portsCarryOneThingAtATime : Obligations.PortsCarryOneThingAtATime := by
  intro s
  refine ⟨fun w0 ws hport hlen => ?issued, fun ws hno => congrArg Host.Outcome.next ?notIssued,
    fun w0 ws hport hlen hready => ?taken,
    fun f => ⟨fun hrx => congrArg Host.Outcome.next (transportMove_offerFrame_of_free f hrx),
      fun hrx => congrArg Host.Outcome.next (transportMove_offerFrame_of_taken f hrx)⟩,
    fun a => ⟨fun hbusy ha => congrArg Host.Outcome.next (transportMove_answer_of_pending a hbusy ha),
      fun hno => congrArg Host.Outcome.next (transportMove_answer_of_not_pending a hno)⟩⟩
  case issued => exact congrArg Host.Outcome.next (hostMove_issue_of_free hport ((oneCommand_cons w0 ws).2 hlen))
  case notIssued =>
    rcases hno with hport | hwords
    · exact hostMove_issue_of_taken ws hport
    · refine hostMove_issue_of_not_oneCommand s fun hone => ?_
      obtain ⟨w0, rest, hws, hlen⟩ := (oneCommand_eq_true_iff ws).1 hone
      exact hwords w0 rest hws hlen
  case taken =>
    obtain ⟨t, ht, hrest⟩ := takeCommand_of_whole hport hlen.ge
    exact ⟨t, (cmdMove_of_commandReady hready).trans ht, hrest.trans (List.drop_of_length_le hlen.le)⟩

/-! ### OPEN and CLOSE (R129 to R131) -/

/-- The command whose request on the control port is `op`. -/
def CtlOp.command (op : CtlOp) (h : Header) : Instr :=
  match op with
  | .openChannel => .openChannel h
  | .closeChannel => .closeChannel h

theorem CtlOp.legal_command_iff (op : CtlOp) (h : Header) :
    (op.command h).legal = true ↔ h.node = 0 ∧ h.rtr = false ∧ h.rsv = 0 ∧ h.len = 0 := by
  cases op <;>
    exact (legal_iff_of_fieldRule rfl).trans (by simp [CtlOp.command, Instr.header, Instr.operandsOk, ← BitVec.toNat_inj])

theorem CtlOp.exec_command_of_legal {op : CtlOp} {h : Header} (s : State) (hl : (op.command h).legal = true) :
    exec (op.command h) s = .next (ctrl op s) := by
  obtain ⟨hnode, hrtr, hrsv, hlen⟩ := (op.legal_command_iff h).1 hl
  cases op <;> exact if_neg (by simp [hnode, hrtr, hrsv, hlen])

/-- Any answer to a request ends its command (R129). -/
theorem takeAnswer_ctlWait {s : State} {op : CtlOp} (h : s.cmd = .ctlWait op) (a : TRes) : takeAnswer a s = finish 0 a s := by
  cases op with
  | openChannel => simp only [takeAnswer, h, answerOpen]
  | closeChannel => simp only [takeAnswer, h, answerClose]

/-- Settles O42: the rows of opcodes 0x20 and 0x21 have no operand word, a legal command offers its request, and the answer to it
ends it. -/
theorem channelCommands : Obligations.ChannelCommands := by
  refine ⟨fun w0 rest => ⟨fun hopc => ?openWords, fun hopc => ?closeWords⟩, fun h s => ?_, fun s op a hcmd hresp ha => ?answer⟩
  case openWords => exact decode_known (o := .openChannel) (ops := []) rest (ofCode_eq_some_iff.2 hopc.symm) rfl
  case closeWords => exact decode_known (o := .closeChannel) (ops := []) rest (ofCode_eq_some_iff.2 hopc.symm) rfl
  case answer =>
    refine (cmdMove_of_answer (by simp [hcmd]) hresp ha).trans (congrArg _ ?_)
    rw [takeAnswer_ctlWait (s := s.withAnswer none) hcmd]
    cases a <;> rfl
  intro legal
  have hlegal (op : CtlOp) : (op.command h).legal = true ↔ legal := op.legal_command_iff h
  have hoffer (hl : legal) (op : CtlOp) : exec (op.command h) s = .next (ctrl op s) :=
    CtlOp.exec_command_of_legal s ((hlegal op).2 hl)
  have hrefuse (hbad : ¬ legal) (op : CtlOp) : exec (op.command h) s = .next (respondIllegal s) :=
    exec_of_not_legal s ((hlegal op).not.2 hbad)
  exact ⟨fun hl => ⟨hoffer hl .openChannel, hoffer hl .closeChannel⟩,
    fun hbad => ⟨hrefuse hbad .openChannel, hrefuse hbad .closeChannel⟩⟩

end Sys2Proof.Machine
end

section
/-! PROOFS. Exceptions: every turn answers a next state, and a new identifier that finds no context free is only reported. -/

namespace Sys2Proof.Machine

/-! ### No trap (R140, R155) -/

theorem takeCommand_goesOn (s : State) : ∃ t, takeCommand s = .next t := by
  rcases takeCommand_shape s with h | h | ⟨i, rest, _, h⟩
  · exact ⟨_, h⟩
  · exact ⟨_, h⟩
  · obtain ⟨t, ht, -⟩ := exec_cmdPort i (s.withCmdPort rest)
    exact ⟨t, h.trans ht⟩

theorem cmdMove_goesOn (s : State) : ∃ t, cmdMove s = .next t := by
  rcases cmdMove_shape s with h | ⟨_, _, _, h⟩ | ⟨_, _, h⟩
  · exact ⟨_, h⟩
  · exact ⟨_, h⟩
  · obtain ⟨t, ht⟩ := takeCommand_goesOn s
    exact ⟨t, h.trans ht⟩

/-- CMD's turn is the only one whose outcome is not a next state by definition. -/
theorem move_goesOn (m : Move) (s : State) : ∃ t, move m s = .next t := by
  cases m with
  | host a => exact ⟨hostMove a s, rfl⟩
  | cmd => exact cmdMove_goesOn s
  | rxe => exact ⟨rxeMove s, rfl⟩
  | transport a => exact ⟨transportMove a s, rfl⟩

/-- Settles O6: an empty schedule keeps the state, and each agent's turn answers a next state. -/
theorem everyStepGoesOn : Obligations.EveryStepGoesOn := by
  intro s
  cases hs : s.script with
  | nil => exact ⟨s, step_nil hs⟩
  | cons m ms =>
    rw [step_cons hs]
    exact move_goesOn m (s.withScript ms)

/-! ### No context free (R111, R148) -/

theorem Indexed.receive_full {s : State} {f : Frame} {t : Target} (h : Indexed s f t)
    (hidx : (f.byte 0).toNat < nseg t.len.toNat) (hnone : Memory.find s.ctx f.id = none)
    (hfull : s.params.nctx ≤ s.ctx.length) :
    receive f s = emit (.rxError t.tag f.key .ctxFull f.size (f.byte 0)) s := by
  have hkept : s.withCtx (Memory.dropOtherSize s.ctx f.id t.len) = s :=
    congrArg s.withCtx (Memory.dropOtherSize_of_find_none t.len hnone)
  rw [h.receive_eq, hkept]
  exact takeIndexed_full (Nat.not_le.2 hidx) hnone hfull

/-- Settles O51: the other-size discard finds no context of the identifier, and a new one finds no room. -/
theorem noFreeContext : Obligations.NoFreeContext := by
  intro s f t hext hrtr hpos h8 hsel hmulti hidx hnone hfull
  have h : Indexed s f t := ⟨hext, hrtr, hpos, h8, hsel, hmulti⟩
  exact h.receive_full hidx hnone hfull.ge

end Sys2Proof.Machine
end

section
/-! PROOFS. Reset at any time: the turn that asserts it, what an identifier without a context reads as, and the room it leaves
RXE. -/

namespace Sys2Proof.Machine

/-! ### What reset leaves (R162) -/

theorem move_assertReset (s : State) : move (.host .assertReset) s = .next (resetBlock s) := rfl

@[simp] theorem Memory.find_nil (id : Ident) : Memory.find [] id = none := rfl

/-- An identifier with no live context reads as a value zero (R27). -/
theorem Memory.readByte_of_find_none {m : Memory} {id : Ident} (h : Memory.find m id = none) (off : Nat) :
    Memory.readByte m id off = 0 := by
  simp only [Memory.readByte, h]

/-- An identifier with no live context reads as a bitmap clear (R27). -/
theorem Memory.readBit_of_find_none {m : Memory} {id : Ident} (h : Memory.find m id = none) (i : Nat) :
    Memory.readBit m id i = false := by
  simp only [Memory.readBit, h]

/-- Settles O1: reset writes each piece by name, and in an empty `CTX` no identifier has a context. -/
theorem resetSetsEveryPieceOfState : Obligations.ResetSetsEveryPieceOfState := by
  refine ⟨fun s => ⟨resetBlock s, move_assertReset s, resetBlock_exact s, resetBlock_masked s, resetBlock_ctx s,
    resetBlock_cmd s, resetBlock_resp s, resetBlock_outq s, ?bytes, ?bits⟩, ?resetState⟩
  case bytes => exact fun id off => Memory.readByte_of_find_none (Memory.find_nil id) off
  case bits => exact fun id i => Memory.readBit_of_find_none (Memory.find_nil id) i
  case resetState => exact ⟨rfl, rfl, rfl, rfl, rfl, rfl⟩

/-! ### Reset with a request in flight (R163) -/

/-- An answer to a withdrawn offer is ignored (log entry 10). -/
theorem transportMove_answerWithdrawn (a : TRes) (s : State) : transportMove (.answerWithdrawn a) s = s := rfl

theorem Params.one_le_outqDepth {p : Params} (h : p.wf = true) : 1 ≤ p.outqDepth := by
  obtain ⟨-, houtq⟩ := Bool.and_eq_true_iff.1 h
  exact of_decide_eq_true houtq

/-- An empty `OUTQ` of any legal depth has room, so RXE does not hold after reset (R100). -/
theorem resetBlock_rxeReady {s : State} (h : s.params.wf = true) : (resetBlock s).rxeReady = true :=
  decide_eq_true (Params.one_le_outqDepth h)

/-- Settles O2: CMD is idle after reset, so no later answer finds an offer; RXE finds the port's frame and room for its event. -/
theorem resetWithdrawsTheOffer : Obligations.ResetWithdrawsTheOffer := by
  intro s _
  refine ⟨resetBlock s, move_assertReset s, resetBlock_cmd s, resetBlock_answer s, resetBlock_resp s, resetBlock_respLog s,
    resetBlock_txLog s, resetBlock_ctlLog s, fun a => congrArg Host.Outcome.next ?lateAnswer,
    fun a u => congrArg Host.Outcome.next (transportMove_answerWithdrawn a u), resetBlock_rxPort s,
    fun f hf hparams => congrArg Host.Outcome.next ?rxe⟩
  case lateAnswer => exact transportMove_answer_of_not_pending a (.inl (resetBlock_cmd s))
  case rxe => exact rxeMove_of_frame (resetBlock_rxeReady hparams) ((resetBlock_rxPort s).trans hf)

end Sys2Proof.Machine
end
